-- ==== Sys2Proof/Word.lean ====
section
/-! DEFINITION. The bit patterns the DATC handles: bytes of SRC, native words, command and response doublewords. -/

namespace Sys2Proof

/-- One byte of the source sample space SRC (20_memory.md R60). -/
abbrev Byte := BitVec 8

/-- One 32-bit word: a native word of a transmit buffer, or a 32-bit register (10_state.md R24, R31). -/
abbrev Word := BitVec 32

/-- One 64-bit doubleword: a command CW or a response RW (30_encoding.md R93, R96). -/
abbrev DWord := BitVec 64

/-- A 16.8 fixed-point clock divider (10_state.md R38). -/
abbrev Divider := BitVec 24

end Sys2Proof
end

