-- ==== Sys2Proof/Config.lean ====
section
/-! DEFINITION. The configuration record CFG (00_scope.md R7), its constants, and the free values the spec leaves open. -/

namespace Sys2Proof

/-- NATIVE_FMT: the native word format, fixed per configuration (00_scope.md R7, 44_format_adapter.md R221). -/
inductive NativeFmt where
  /-- One word a frame: left in bits [31:16], right in bits [15:0]. -/
  | packed16
  /-- Two words a frame, left then right, each a 24-bit sample in bits [31:8]. -/
  | lj24
  deriving DecidableEq, Repr, Inhabited

/-- WAIT_MODE: what software outside the DATC does during a hold; no rule reads it (R7, decision D30). -/
inductive WaitMode where
  | busy
  | coop
  deriving DecidableEq, Repr, Inhabited

/-- The four agents that take steps (10_state.md R22). The fifth, the serial transmitter, has none of its own. -/
inductive Agent where
  /-- (P) presents INIT, WRITE, ISRDY and steps a WRITE through its phases. -/
  | producer
  /-- (C) presents the six control commands. -/
  | control
  /-- (E) moves one word a step. -/
  | engine
  /-- (H) one step per completion interrupt. -/
  | handler
  deriving DecidableEq, Repr, Inhabited

/-- The configuration record CFG of 00_scope.md R7. A record of plain data cannot hold DB2LIN itself: it holds the number
of a function, and `db2lin` of Machine/Gain.lean is that function (log 7). RND is `rnd` there. ATT_FLOOR, DIV_INT_BITS and DIV_FRAC_BITS have decided values and are constants. -/
structure Config where
  /-- BUF_FRAMES: frames per buffer. -/
  bufFrames : Nat
  /-- NATIVE_FMT. -/
  nativeFmt : NativeFmt
  /-- SYS_CLK_HZ: the system clock. -/
  sysClkHz : Nat
  /-- CYCLES_PER_BIT: serial program cycles per bit. -/
  cyclesPerBit : Nat
  /-- HAS_MCLK: whether a master clock output exists. -/
  hasMclk : Bool
  /-- MCLK_MULT: the master clock's multiple of the rate. -/
  mclkMult : Nat
  /-- DEFAULT_RATE: the rate RATE holds at reset, in Hz. -/
  defaultRate : Nat
  /-- VOL_MIN: least volume, in 1/256 dB. -/
  volMin : Int
  /-- VOL_MAX: greatest volume, in 1/256 dB. -/
  volMax : Int
  /-- VOL_RES: the resolution step the range query reports. -/
  volRes : Int
  /-- DB2LIN: which function of 43_gain_smoothing.md R184 (log 7). -/
  db2linFn : Nat
  /-- DB2LIN_EPS, the tolerance of P4 (R184, log 26). -/
  db2linEps : Rat
  /-- WAIT_MODE. -/
  waitMode : WaitMode
  deriving DecidableEq, Repr

/-- ATT_FLOOR: -128 dB in 1/256 dB units (00_scope.md R7, 43_gain_smoothing.md R183, decision D16). -/
def attFloor : Int := -32768

/-- Units of 1/256 dB to a factor of ten: 10^(dB/20) is 10^(a/5120) (43_gain_smoothing.md R184). -/
def dbDecade : Nat := 5120

/-- DIV_FRAC_BITS (R7, decision D27). -/
def divFracBits : Nat := 8

/-- DIV_INT_BITS (R7, decision D27). -/
def divIntBits : Nat := 16

/-- The constraints R7 and 43_gain_smoothing.md R184 put on CFG. That DEFAULT_RATE fits the 32 bits of RATE is DEDUCED
from 10_state.md R38 (log 20); that DB2LIN_EPS is not 0 is DEDUCED from R184 (log 26). -/
def Config.valid (c : Config) : Bool :=
  decide (1 ≤ c.bufFrames ∧ c.bufFrames ≤ 65535) &&
  decide (0 < c.sysClkHz) &&
  decide (1 ≤ c.cyclesPerBit) &&
  decide (1 ≤ c.mclkMult) &&
  decide (0 < c.defaultRate ∧ c.defaultRate < 2 ^ 32) &&
  decide (-32768 ≤ c.volMin ∧ c.volMin ≤ 0) &&
  decide (0 ≤ c.volMax ∧ c.volMax ≤ 32767) &&
  decide (1 ≤ c.volRes ∧ c.volRes ≤ 32767) &&
  decide (0 < c.db2linEps)

/-- REF-A of 95_test_vectors.md: the reference values of R7 with NATIVE_FMT = PACKED16.
DESIGN CHOICE (log 1): the configuration of `State.reset`; unsafe for a claim about that one state.
DESIGN CHOICE (log 17): WAIT_MODE = BUSY, for which the spec gives no reference value.
DESIGN CHOICE (logs 7, 26): DB2LIN is the function numbered 0, a name with no content, and DB2LIN_EPS is 1/1000; the
spec gives no reference value for either. -/
def Config.refA : Config where
  bufFrames := 4
  nativeFmt := .packed16
  sysClkHz := 125000000
  cyclesPerBit := 2
  hasMclk := false
  mclkMult := 256
  defaultRate := 48000
  volMin := -32768
  volMax := 0
  volRes := 1
  db2linFn := 0
  db2linEps := 1 / 1000
  waitMode := .busy

/-- REF-B of 95_test_vectors.md: REF-A with NATIVE_FMT = LJ24. -/
def Config.refB : Config := { Config.refA with nativeFmt := .lj24 }

/-- FREE VALUE (log 2): the agent that moves at the step numbered by the argument, when no turn is scheduled.
10_state.md R22 lets any enabled agent be scheduled next. -/
opaque Config.freeAgent : Nat → Agent

/-- FREE VALUE (log 6): the byte SRC holds, at the instant of the first argument and the address of the second,
where the collaborator has placed none. 20_memory.md R61: SRC is an input of the model. -/
opaque Config.freeSrcByte : Nat → Nat → Byte

/-- FREE VALUE (log 7): the value proposed for the DB2LIN function numbered by the first argument at the integer of the
second: the pair `(p, q)` stands for the positive rational `(p + 1) / (q + 1)`. `db2lin` takes it wherever
43_gain_smoothing.md R184 allows it. -/
opaque Config.freeGain : Nat → Int → Nat × Nat

end Sys2Proof
end

