-- ==== Sys2Proof/Syntax.lean ====
section
/-! DEFINITION. The nine commands of the DATC (30_encoding.md R92 to R95), one constructor per row of
spec/opcode_table.json, and their operands. -/

namespace Sys2Proof

/-- The two command ports (30_encoding.md R90). -/
inductive Port where
  /-- Port P, the producer's. -/
  | p
  /-- Port C, the control context's. -/
  | c
  deriving DecidableEq, Repr

/-- FMT, the source format of WRITE (30_encoding.md R95, 44_format_adapter.md R220). -/
inductive Fmt where
  /-- Mono, 16-bit. -/
  | m16
  /-- Interleaved stereo, 16-bit. -/
  | s16
  /-- Mono, 24-bit in the low bits of a 32-bit container. -/
  | m24r
  /-- Interleaved stereo, 24-bit in the low bits of a 32-bit container. -/
  | s24r
  /-- Mono, 24-bit left-justified in a 32-bit container. -/
  | m24l
  /-- Interleaved stereo, 24-bit left-justified in a 32-bit container. -/
  | s24l
  deriving DecidableEq, Repr

/-- CH, the channel a control command names (30_encoding.md R95, decision D18). -/
inductive Chan where
  /-- Channel 0, left. -/
  | ch0
  /-- Channel 1, right. -/
  | ch1
  /-- The master. -/
  | master
  deriving DecidableEq, Repr

/-- ITEM of GVRNG (30_encoding.md R95). -/
inductive RangeItem where
  | min
  | max
  | res
  deriving DecidableEq, Repr

/-- A command with its operands assembled as 30_encoding.md R95 says. -/
inductive Instr where
  /-- INIT rate: RATE32, a number of Hz (42_transmitter_binding.md R150). -/
  | init (rate : Nat)
  /-- WRITE fmt, ptr, cnt: source format, byte address in SRC, frames (41_double_buffer.md R120). -/
  | write (fmt : Fmt) (ptr cnt : Nat)
  /-- ISRDY (41_double_buffer.md R127). -/
  | isrdy
  /-- SMUTE ch, m (43_gain_smoothing.md R192). -/
  | smute (ch : Chan) (m : Bool)
  /-- GMUTE ch (43_gain_smoothing.md R193). -/
  | gmute (ch : Chan)
  /-- SVOL ch, vol: V16 in 1/256 dB (43_gain_smoothing.md R194). -/
  | svol (ch : Chan) (vol : Int)
  /-- GVOL ch (43_gain_smoothing.md R195). -/
  | gvol (ch : Chan)
  /-- GVRNG item (43_gain_smoothing.md R196). -/
  | gvrng (item : RangeItem)
  /-- GRATE (45_clock_configurator.md R254). -/
  | grate
  deriving DecidableEq, Repr

/-- The port a command belongs to (30_encoding.md R90, R94). -/
def Instr.port : Instr → Port
  | .init _ => .p
  | .write _ _ _ => .p
  | .isrdy => .p
  | .smute _ _ => .c
  | .gmute _ => .c
  | .svol _ _ => .c
  | .gvol _ => .c
  | .gvrng _ => .c
  | .grate => .c

end Sys2Proof
end

