-- ==== Sys2Proof/WellFormed.lean ====
section
/-! DEFINITION. Which commands have an encoding: every operand in the range of its field (30_encoding.md R93, R95). -/

namespace Sys2Proof

/-- RATE32 and PTR are 32-bit unsigned fields (30_encoding.md R95). -/
def fitsArg (n : Nat) : Bool := decide (n < 2 ^ 32)

/-- CNT is a 16-bit unsigned field (30_encoding.md R95). -/
def fitsCnt (n : Nat) : Bool := decide (n < 2 ^ 16)

/-- V16 is a 16-bit signed field, -32768 to 32767 (30_encoding.md R95). -/
def fitsVol (v : Int) : Bool := decide (-32768 ≤ v ∧ v ≤ 32767)

/-- The command's operands fit their fields. FMT, CH, M and ITEM are legal by their types. -/
def Instr.wf : Instr → Bool
  | .init rate => fitsArg rate
  | .write _ ptr cnt => fitsArg ptr && fitsCnt cnt
  | .isrdy => true
  | .smute _ _ => true
  | .gmute _ => true
  | .svol _ vol => fitsVol vol
  | .gvol _ => true
  | .gvrng _ => true
  | .grate => true

end Sys2Proof
end

