-- ==== Sys2Proof/Decode.lean ====
section
/-! DEFINITION. The decoder: total on every doubleword and port, rejecting by name (30_encoding.md R93 to R100);
and after it the encoder, from the same tables. -/

namespace Sys2Proof

/-- Why a doubleword is illegal on a port (30_encoding.md R98). All are answered ERR_ILLEGAL alike. -/
inductive Illegal where
  /-- OPC is not in the table of R94. -/
  | unknownOpcode
  /-- OPC belongs to the other port. -/
  | wrongPort
  /-- A field that R94 gives as 0 is not 0. -/
  | nonzeroField
  /-- SEL of WRITE is none of the six formats. -/
  | badFormat
  /-- CH or ITEM is 3 or more. -/
  | badSelector
  deriving DecidableEq, Repr

/-- The nine operation codes, before their operands are read (30_encoding.md R94). -/
inductive Opcode where
  | init
  | write
  | isrdy
  | smute
  | gmute
  | svol
  | gvol
  | gvrng
  | grate
  deriving DecidableEq, Repr

/-- OPC = CW[63:56] (30_encoding.md R93). -/
def opcField (cw : DWord) : BitVec 8 := cw.extractLsb' 56 8

/-- SEL = CW[55:48] (30_encoding.md R93). -/
def selField (cw : DWord) : BitVec 8 := cw.extractLsb' 48 8

/-- CNT = CW[47:32] (30_encoding.md R93). -/
def cntField (cw : DWord) : BitVec 16 := cw.extractLsb' 32 16

/-- ARG = CW[31:0] (30_encoding.md R93). -/
def argField (cw : DWord) : BitVec 32 := cw.extractLsb' 0 32

/-- The opcode map, OPC to operation (30_encoding.md R94). -/
def opcodeOf (opc : BitVec 8) : Option Opcode :=
  if opc = 0x01#8 then some .init
  else if opc = 0x02#8 then some .write
  else if opc = 0x03#8 then some .isrdy
  else if opc = 0x10#8 then some .smute
  else if opc = 0x11#8 then some .gmute
  else if opc = 0x12#8 then some .svol
  else if opc = 0x13#8 then some .gvol
  else if opc = 0x14#8 then some .gvrng
  else if opc = 0x15#8 then some .grate
  else none

/-- The port of an operation (30_encoding.md R94). -/
def opcodePort : Opcode → Port
  | .init => .p
  | .write => .p
  | .isrdy => .p
  | .smute => .c
  | .gmute => .c
  | .svol => .c
  | .gvol => .c
  | .gvrng => .c
  | .grate => .c

/-- The six legal values of FMT; 4 and 5 (LJ without WIDE) and 8 and above are none (30_encoding.md R95). -/
def fmtOfSel (sel : BitVec 8) : Option Fmt :=
  if sel = 0#8 then some .m16
  else if sel = 1#8 then some .s16
  else if sel = 2#8 then some .m24r
  else if sel = 3#8 then some .s24r
  else if sel = 6#8 then some .m24l
  else if sel = 7#8 then some .s24l
  else none

/-- CH = SEL: 0, 1, 2 (30_encoding.md R95). -/
def chanOfSel (sel : BitVec 8) : Option Chan :=
  if sel = 0#8 then some .ch0
  else if sel = 1#8 then some .ch1
  else if sel = 2#8 then some .master
  else none

/-- ITEM = SEL: 0 MIN, 1 MAX, 2 RES (30_encoding.md R95). -/
def itemOfSel (sel : BitVec 8) : Option RangeItem :=
  if sel = 0#8 then some .min
  else if sel = 1#8 then some .max
  else if sel = 2#8 then some .res
  else none

/-- `x` where the condition R94 puts on must-be-zero fields holds. -/
def requireZero (zero : Bool) (x : Instr) : Except Illegal Instr :=
  if zero then .ok x else .error .nonzeroField

/-- A control command on channel CH, if SEL names one. -/
def withChan (sel : BitVec 8) (k : Chan → Except Illegal Instr) : Except Illegal Instr :=
  match chanOfSel sel with
  | some ch => k ch
  | none => .error .badSelector

/-- Operand assembly (30_encoding.md R95) with the field constraints of R94 and R98. -/
def decodeFields (op : Opcode) (sel : BitVec 8) (cnt : BitVec 16) (arg : BitVec 32) : Except Illegal Instr :=
  match op with
  | .init => requireZero (sel = 0#8 && cnt = 0#16) (.init arg.toNat)
  | .write =>
    match fmtOfSel sel with
    | some fmt => .ok (.write fmt arg.toNat cnt.toNat)
    | none => .error .badFormat
  | .isrdy => requireZero (sel = 0#8 && cnt = 0#16 && arg = 0#32) .isrdy
  | .smute => withChan sel fun ch =>
      requireZero (cnt = 0#16 && arg.extractLsb' 1 31 = 0#31) (.smute ch (arg.getLsbD 0))
  | .gmute => withChan sel fun ch => requireZero (cnt = 0#16 && arg = 0#32) (.gmute ch)
  | .svol => withChan sel fun ch =>
      requireZero (cnt = 0#16 && arg.extractLsb' 16 16 = 0#16) (.svol ch (arg.extractLsb' 0 16).toInt)
  | .gvol => withChan sel fun ch => requireZero (cnt = 0#16 && arg = 0#32) (.gvol ch)
  | .gvrng =>
    match itemOfSel sel with
    | some item => requireZero (cnt = 0#16 && arg = 0#32) (.gvrng item)
    | none => .error .badSelector
  | .grate => requireZero (sel = 0#8 && cnt = 0#16 && arg = 0#32) .grate

/-- The total decoder: every 64-bit value on every port is one legal command or illegal (30_encoding.md R98). -/
def decode (port : Port) (cw : DWord) : Except Illegal Instr :=
  match opcodeOf (opcField cw) with
  | none => .error .unknownOpcode
  | some op =>
    if opcodePort op = port then decodeFields op (selField cw) (cntField cw) (argField cw)
    else .error .wrongPort

/-- SEL of a source format (30_encoding.md R95). -/
def fmtSel : Fmt → BitVec 8
  | .m16 => 0#8
  | .s16 => 1#8
  | .m24r => 2#8
  | .s24r => 3#8
  | .m24l => 6#8
  | .s24l => 7#8

/-- SEL of a channel (30_encoding.md R95). -/
def chanSel : Chan → BitVec 8
  | .ch0 => 0#8
  | .ch1 => 1#8
  | .master => 2#8

/-- SEL of a range item (30_encoding.md R95). -/
def itemSel : RangeItem → BitVec 8
  | .min => 0#8
  | .max => 1#8
  | .res => 2#8

/-- CW = OPC ## SEL ## CNT ## ARG (30_encoding.md R93). -/
def packCommand (opc sel : BitVec 8) (cnt : BitVec 16) (arg : BitVec 32) : DWord :=
  opc ++ sel ++ cnt ++ arg

/-- The doubleword of a well-formed command (30_encoding.md R94, R101). -/
def encode : Instr → DWord
  | .init rate => packCommand 0x01#8 0#8 0#16 (BitVec.ofNat 32 rate)
  | .write fmt ptr cnt => packCommand 0x02#8 (fmtSel fmt) (BitVec.ofNat 16 cnt) (BitVec.ofNat 32 ptr)
  | .isrdy => packCommand 0x03#8 0#8 0#16 0#32
  | .smute ch m => packCommand 0x10#8 (chanSel ch) 0#16 (if m then 1#32 else 0#32)
  | .gmute ch => packCommand 0x11#8 (chanSel ch) 0#16 0#32
  | .svol ch vol => packCommand 0x12#8 (chanSel ch) 0#16 (0#16 ++ BitVec.ofInt 16 vol)
  | .gvol ch => packCommand 0x13#8 (chanSel ch) 0#16 0#32
  | .gvrng item => packCommand 0x14#8 (itemSel item) 0#16 0#32
  | .grate => packCommand 0x15#8 0#8 0#16 0#32

/-- The doubleword numbered `w` in `nbits` bits, as spec/opcode_table.json numbers its bits. -/
def tableWord (nbits w : Nat) : DWord := BitVec.ofNat 64 (w % 2 ^ nbits)

/-- The port on which a doubleword is a legal command, if any: its opcode belongs to one port only (R94). -/
def tablePort (cw : DWord) : Port :=
  match opcodeOf (opcField cw) with
  | some op => opcodePort op
  | none => .p

/-- The command the decoder reads from the doubleword `w`, presented on the port its opcode belongs to (log 24). -/
def decodeTableWord (nbits w : Nat) : Option Instr :=
  match decode (tablePort (tableWord nbits w)) (tableWord nbits w) with
  | .ok i => some i
  | .error _ => none

end Sys2Proof
end

