-- ==== Sys2Proof/Machine/State.lean ====
section
/-! DEFINITION. The architectural state of the DATC (10_state.md), the reasons a step can stop, and the state after
reset (10_state.md R47). -/

namespace Sys2Proof.Machine

/-- A memory as plain data: (address, value) pairs at strictly rising addresses. An address that is not listed has
NO VALUE. With 8-bit values this is a list of `Host.Cell`. Its operations are in Machine/Ops.lean. -/
abbrev Memory (w : Nat) := List (Nat × BitVec w)

/-- A transmit buffer: buffer A is index 0, buffer B is index 1 (00_scope.md R13, decision D20). -/
inductive Slot where
  | a
  | b
  deriving DecidableEq, Repr

/-- An output channel: 0 is left, 1 is right (00_scope.md R13, decision D18). -/
inductive Side where
  | left
  | right
  deriving DecidableEq, Repr

/-- TXSTATE (10_state.md R27). -/
inductive TxState where
  /-- Transmission has not been started since reset or since the last INIT. -/
  | idle
  /-- The engine is armed on, or has just exhausted, BUF[0]. -/
  | drainA
  /-- The same for BUF[1]. -/
  | drainB
  /-- The same for the silence buffer. -/
  | drainSilence
  deriving DecidableEq, Repr

/-- WPHASE: where the producer stands in a WRITE (10_state.md R40). -/
inductive WPhase where
  | none
  | wait
  | fill
  | publish
  deriving DecidableEq, Repr

/-- OWNER(i), derived and not stored (10_state.md R29). -/
inductive Ownership where
  | draining
  | filling
  | pending
  | free
  deriving DecidableEq, Repr

/-- STATUS of a response (30_encoding.md R97). -/
inductive Status where
  | ok
  | errIllegal
  | errNoEngine
  | errFailed
  | errNotInit
  | errRate
  | errFormat
  | errCount
  | errAddr
  deriving DecidableEq, Repr

/-- What happens next, scheduled from outside (log 2): an agent's turn, or a move of the surroundings. -/
inductive Turn where
  /-- The agent takes its step, if it has one enabled (10_state.md R22). -/
  | agent (a : Agent)
  /-- RESET, the hardware reset (70_reset_and_hazards.md R310). -/
  | reset
  /-- The collaborator that owns SRC stores a byte there (20_memory.md R60, R61). -/
  | store (addr : BitVec 32) (value : Byte)
  /-- The surroundings decide ENGINE_AVAILABLE (00_scope.md R8). -/
  | available (yes : Bool)
  deriving DecidableEq, Repr

/-- Why the model stops with a fault. Each is SAFE: it stops where the spec gives no behaviour, and the spec says
that no rule reaches it (10_state.md R46; 93_implementation_defined.md U10, U12). -/
inductive Fault where
  /-- Raised by the engine's word step: a word of BUF[0] or BUF[1] that was never written is read (R24, U10). Safe. -/
  | bufferWordAbsent (addr : Nat)
  /-- Raised by the engine's word step: a read at or above 3W, outside the map of R63 (R64). Safe. -/
  | bufferReadOutside (addr : Nat)
  /-- Raised by the fill step: a write at or above 2W, the read-only silence buffer or outside the map (R64). Safe. -/
  | bufferWriteOutside (addr : Nat)
  /-- Raised by the fill step: a word of STAGE that was never written is read (R41, U10). Safe. -/
  | stageWordAbsent (index : Nat)
  /-- Raised by the publish step and the handler: ARM with ENG_BUSY true (R155, U12). Safe. -/
  | armWhileBusy
  /-- Raised by the engine's word step: ENG_BUSY with ENG_CNT = 0, which R157 excludes ("then ENG_CNT ≥ 1"). Safe. -/
  | transferExhausted
  deriving DecidableEq, Repr

/-- Why the model refuses. No meaning refuses. -/
inductive Refusal where
  /-- Raised by a dispatch arm of an instruction that has no meaning yet; no arm uses it. Safe. -/
  | notModelled (mnemonic : String)
  deriving DecidableEq, Repr

/-- The state of the DATC (10_state.md R24 to R42), its configuration record, and its inputs. -/
structure State where
  /-- CFG (00_scope.md R7): no step writes it (log 1). -/
  cfg : Config
  /-- BUF[0] and BUF[1]: BUFMEM[0 .. 2W-1] (R24, 20_memory.md R63). SIL is hard-wired zero (R28, log 10). -/
  buf : Memory 32
  /-- READY[0] (R25). -/
  ready0 : Bool
  /-- READY[1] (R25). -/
  ready1 : Bool
  /-- ACTIVE, the active index (R26). -/
  active : Slot
  /-- TXSTATE (R27). -/
  txState : TxState
  /-- ENGINE_CLAIMED (R30). -/
  engineClaimed : Bool
  /-- ENG_ADDR: the BUFMEM word address of the next word to move (R31). -/
  engAddr : Word
  /-- ENG_CNT: words remaining in the transfer in flight (R31). -/
  engCnt : Word
  /-- ENG_BUSY (R31). -/
  engBusy : Bool
  /-- IRQ_EN: completion interrupt enable (R31). -/
  irqEn : Bool
  /-- IRQ_PEND: the completion interrupt is pending (R32). -/
  irqPend : Bool
  /-- SM_EN: serial transmit state machine enable (R31). -/
  smEn : Bool
  /-- GAIN_CUR[0] (R34). -/
  gainCur0 : Rat
  /-- GAIN_CUR[1] (R34). -/
  gainCur1 : Rat
  /-- GAIN_TGT[0] (R34). -/
  gainTgt0 : Rat
  /-- GAIN_TGT[1] (R34). -/
  gainTgt1 : Rat
  /-- MUTE[0] (R35). -/
  mute0 : Bool
  /-- MUTE[1] (R35). -/
  mute1 : Bool
  /-- MUTE[2], the master mute (R35). -/
  mute2 : Bool
  /-- VOL[0], two's complement, 1/256 dB (R36). -/
  vol0 : BitVec 16
  /-- VOL[1] (R36). -/
  vol1 : BitVec 16
  /-- VOL[2], the master attenuation (R36). -/
  vol2 : BitVec 16
  /-- RATE, in Hz (R38). -/
  rate : Word
  /-- CLKDIV, 16.8 fixed point (R38). -/
  clkDiv : Divider
  /-- MCLKDIV, 16.8 fixed point (R38). -/
  mclkDiv : Divider
  /-- INITED (R39). -/
  inited : Bool
  /-- FAILED (R39). -/
  failed : Bool
  /-- WPHASE (R40). -/
  wphase : WPhase
  /-- WT: the buffer the WRITE in progress fills (R40). -/
  wt : Slot
  /-- WIDX: words of STAGE already copied (R40). -/
  widx : Nat
  /-- STAGE[0 .. W-1]: the processed block; shorter than W where words have no value (R41, log 9). -/
  stage : List Word
  /-- TXOUT: the words handed to the serial transmitter since reset, oldest first (R42). -/
  txOut : List Word
  /-- RESP_P: the responses on port P since reset, oldest first (R42). -/
  respP : List DWord
  /-- RESP_C: the responses on port C since reset, oldest first (R42). -/
  respC : List DWord
  /-- INPUT: the bytes the collaborator has placed in SRC (20_memory.md R61, log 6). -/
  src : Memory 8
  /-- INPUT: ENGINE_AVAILABLE (00_scope.md R8, log 5). -/
  engineAvailable : Bool
  /-- INPUT: doublewords presented on port P and not yet accepted, oldest first (30_encoding.md R90, log 3). -/
  portP : List DWord
  /-- INPUT: doublewords presented on port C and not yet accepted, oldest first (30_encoding.md R90, log 3). -/
  portC : List DWord
  /-- INPUT: the turns scheduled, next first (10_state.md R22, log 2). -/
  turns : List Turn
  /-- MODEL: the number of steps taken, the argument of the free values (logs 2 and 6). -/
  tick : Nat
  deriving DecidableEq, Repr

/-- The reset table of 10_state.md R47 for a configuration, with no input given yet. The values of `src`,
`engineAvailable`, `portP`, `portC`, `turns` and `tick` are the model's (logs 2, 3, 5, 6). -/
def State.powerOn (cfg : Config) : State where
  cfg := cfg
  buf := []
  ready0 := false
  ready1 := false
  active := .a
  txState := .idle
  engineClaimed := false
  engAddr := 0#32
  engCnt := 0#32
  engBusy := false
  irqEn := false
  irqPend := false
  smEn := false
  gainCur0 := 1
  gainCur1 := 1
  gainTgt0 := 1
  gainTgt1 := 1
  mute0 := false
  mute1 := false
  mute2 := false
  vol0 := 0#16
  vol1 := 0#16
  vol2 := 0#16
  rate := BitVec.ofNat 32 cfg.defaultRate
  clkDiv := 0#24
  mclkDiv := 0#24
  inited := false
  failed := false
  wphase := .none
  wt := .a
  widx := 0
  stage := []
  txOut := []
  respP := []
  respC := []
  src := []
  engineAvailable := true
  portP := []
  portC := []
  turns := []
  tick := 0

/-- The machine right after reset, in the reference configuration REF-A. DESIGN CHOICE (log 1): R7 leaves the
configuration open; `State.powerOn` is the reset state of any other. -/
def State.reset : State := State.powerOn Config.refA

/-- The outcome of a step of the DATC. -/
abbrev Result := Host.Outcome State Fault Refusal

end Sys2Proof.Machine
end

