-- ==== Sys2Proof/Machine/Operands.lean ====
section
/-! DEFINITION. Derived parameters of the configuration (00_scope.md R7), the properties of the six source formats
(44_format_adapter.md R220), and the bit patterns of responses (30_encoding.md R96). -/

namespace Sys2Proof.Machine

/-- WPF: words per stereo frame (R7, R221). -/
def wordsPerFrame (c : Config) : Nat :=
  match c.nativeFmt with
  | .packed16 => 1
  | .lj24 => 2

/-- W: words per buffer, BUF_FRAMES × WPF (R7). -/
def bufWords (c : Config) : Nat := c.bufFrames * wordsPerFrame c

/-- SLOT_BITS: bits per channel slot on the link (R7). -/
def slotBits (c : Config) : Nat :=
  match c.nativeFmt with
  | .packed16 => 16
  | .lj24 => 32

/-- FMT[0] = STEREO (30_encoding.md R95). -/
def fmtStereo : Fmt → Bool
  | .m16 => false
  | .s16 => true
  | .m24r => false
  | .s24r => true
  | .m24l => false
  | .s24l => true

/-- FMT[1] = WIDE (30_encoding.md R95). -/
def fmtWide : Fmt → Bool
  | .m16 => false
  | .s16 => false
  | .m24r => true
  | .s24r => true
  | .m24l => true
  | .s24l => true

/-- FMT[2] = LJ (30_encoding.md R95). -/
def fmtLeftJustified : Fmt → Bool
  | .m16 => false
  | .s16 => false
  | .m24r => false
  | .s24r => false
  | .m24l => true
  | .s24l => true

/-- D: the depth of a source sample in bits (R220). -/
def fmtDepth (f : Fmt) : Nat := if fmtWide f then 24 else 16

/-- CB: container bytes (R220). -/
def containerBytes (f : Fmt) : Nat := if fmtWide f then 4 else 2

/-- UB: bytes per frame (R220). -/
def frameBytes (f : Fmt) : Nat := if fmtStereo f then 2 * containerBytes f else containerBytes f

/-- The other transmit buffer, 1 − i. -/
def otherSlot : Slot → Slot
  | .a => .b
  | .b => .a

/-- base(i) of a transmit buffer in BUFMEM (20_memory.md R63). -/
def slotBase (c : Config) : Slot → Nat
  | .a => 0
  | .b => bufWords c

/-- base(SIL) (20_memory.md R63). -/
def silenceBase (c : Config) : Nat := 2 * bufWords c

/-- DRAIN_A for buffer 0, DRAIN_B for buffer 1 (10_state.md R27). -/
def drainOf : Slot → TxState
  | .a => .drainA
  | .b => .drainB

/-- The output channel a side is, as a control channel (decision D18). -/
def sideChan : Side → Chan
  | .left => .ch0
  | .right => .ch1

/-- The STATUS codes (30_encoding.md R97). -/
def statusCode : Status → BitVec 8
  | .ok => 0x00#8
  | .errIllegal => 0x01#8
  | .errNoEngine => 0x02#8
  | .errFailed => 0x03#8
  | .errNotInit => 0x04#8
  | .errRate => 0x05#8
  | .errFormat => 0x06#8
  | .errCount => 0x07#8
  | .errAddr => 0x08#8

/-- RW = STATUS ## 0 (24 bits) ## VALUE (30_encoding.md R96). -/
def responseWord (st : Status) (value : Word) : DWord := statusCode st ++ 0#24 ++ value

/-- zext_16(tc_16(v)) as VALUE (43_gain_smoothing.md R195, R196). -/
def signedValue (v : Int) : Word := (BitVec.ofInt 16 v).zeroExtend 32

/-- A boolean as VALUE: 1 or 0 (R127, R193). -/
def boolValue (b : Bool) : Word := if b then 1#32 else 0#32

end Sys2Proof.Machine
end

