-- ==== Sys2Proof/Machine/Ops.lean ====
section
/-! DEFINITION. The named operations over memory and state: memory cells, SRC and BUFMEM accesses, register accessors,
responses, ARM, and the completion interrupt. -/

namespace Sys2Proof.Machine

/-- The canonical form: addresses strictly rising. An unlisted address has no value, so no entry can repeat what an
unlisted address reads as. -/
def Memory.wf {w : Nat} : Memory w → Bool
  | [] => true
  | [_] => true
  | x :: y :: rest => decide (x.1 < y.1) && Memory.wf (y :: rest)

/-- The value listed at an address, if any. -/
def readCell {w : Nat} : Memory w → Nat → Option (BitVec w)
  | [], _ => none
  | (k, v) :: rest, a => if k = a then some v else readCell rest a

/-- Set the value at an address, keeping the canonical form. -/
def writeCell {w : Nat} : Memory w → Nat → BitVec w → Memory w
  | [], a, v => [(a, v)]
  | (k, u) :: rest, a, v =>
    if a < k then (a, v) :: (k, u) :: rest
    else if a = k then (a, v) :: rest
    else (k, u) :: writeCell rest a v

/-- The byte of SRC at an address: the one the collaborator has placed, or else a free value of this instant
(20_memory.md R61, log 6). -/
def srcByte (s : State) (a : Nat) : Byte := (readCell s.src a).getD (Config.freeSrcByte s.tick a)

/-- MemRead(SRC, addr, 2), little-endian (20_memory.md R62). -/
def memRead2 (s : State) (a : Nat) : BitVec 16 := srcByte s (a + 1) ++ srcByte s a

/-- MemRead(SRC, addr, 4), little-endian (20_memory.md R62). -/
def memRead4 (s : State) (a : Nat) : Word :=
  srcByte s (a + 3) ++ srcByte s (a + 2) ++ srcByte s (a + 1) ++ srcByte s a

/-- BufRead(a) (20_memory.md R64): BUF[0] and BUF[1] below 2W, the zero words of SIL below 3W (10_state.md R28). -/
def bufRead (s : State) (a : Nat) : Except Fault Word :=
  if a < silenceBase s.cfg then
    match readCell s.buf a with
    | some v => .ok v
    | none => .error (.bufferWordAbsent a)
  else if a < 3 * bufWords s.cfg then .ok 0#32
  else .error (.bufferReadOutside a)

/-- BufWrite(a, v), for a < 2W (20_memory.md R64). -/
def bufWrite (s : State) (a : Nat) (v : Word) : Except Fault State :=
  if a < silenceBase s.cfg then .ok { s with buf := writeCell s.buf a v }
  else .error (.bufferWriteOutside a)

/-- READY[i] (10_state.md R25). -/
def getReady (s : State) : Slot → Bool
  | .a => s.ready0
  | .b => s.ready1

/-- READY[i] <- v (10_state.md R25). -/
def setReady (s : State) (i : Slot) (v : Bool) : State :=
  match i with
  | .a => { s with ready0 := v }
  | .b => { s with ready1 := v }

/-- MUTE[ch] (10_state.md R35). -/
def getMute (s : State) : Chan → Bool
  | .ch0 => s.mute0
  | .ch1 => s.mute1
  | .master => s.mute2

/-- MUTE[ch] <- v (10_state.md R35). -/
def setMute (s : State) (ch : Chan) (v : Bool) : State :=
  match ch with
  | .ch0 => { s with mute0 := v }
  | .ch1 => { s with mute1 := v }
  | .master => { s with mute2 := v }

/-- VOL[ch], a signed number of 1/256 dB (10_state.md R36). -/
def getVol (s : State) : Chan → Int
  | .ch0 => s.vol0.toInt
  | .ch1 => s.vol1.toInt
  | .master => s.vol2.toInt

/-- VOL[ch] <- v, held in 16 bits two's complement (10_state.md R36). -/
def setVol (s : State) (ch : Chan) (v : Int) : State :=
  match ch with
  | .ch0 => { s with vol0 := BitVec.ofInt 16 v }
  | .ch1 => { s with vol1 := BitVec.ofInt 16 v }
  | .master => { s with vol2 := BitVec.ofInt 16 v }

/-- GAIN_CUR[c] (10_state.md R34). -/
def getGainCur (s : State) : Side → Rat
  | .left => s.gainCur0
  | .right => s.gainCur1

/-- GAIN_TGT[c] (10_state.md R34). -/
def getGainTgt (s : State) : Side → Rat
  | .left => s.gainTgt0
  | .right => s.gainTgt1

/-- respond(port, status, value): append the response doubleword to the port's sequence (30_encoding.md R96). -/
def respond (s : State) (port : Port) (st : Status) (value : Word) : State :=
  match port with
  | .p => { s with respP := s.respP ++ [responseWord st value] }
  | .c => { s with respC := s.respC ++ [responseWord st value] }

/-- TAKING A SYNCHRONOUS ERROR: the first step of a command sends the error response, VALUE = 0, and ends with
nothing else changed; nothing is saved and there is nothing to return from (60_exceptions.md R271, R272). -/
def answerError (s : State) (port : Port) (st : Status) : State := respond s port st 0#32

/-- TXOUT.push(w) (42_transmitter_binding.md R158). -/
def txPush (s : State) (w : Word) : State := { s with txOut := s.txOut ++ [w] }

/-- ARM(b) (42_transmitter_binding.md R155): a fault of the model while the engine is busy (U12). -/
def arm (s : State) (b : Nat) : Except Fault State :=
  if s.engBusy then .error .armWhileBusy
  else .ok { s with
    engAddr := BitVec.ofNat 32 b
    engCnt := BitVec.ofNat 32 (bufWords s.cfg)
    engBusy := true }

/-- A computation that may end in a fault of the model, as the outcome of a step. -/
def toResult : Except Fault State → Result
  | .ok s => .next s
  | .error f => .fault f

/-- "clears the ready flag of the buffer that just finished draining": the silence buffer has none
(60_exceptions.md R281). -/
def clearDrained (s : State) : State :=
  match s.txState with
  | .idle => s
  | .drainA => setReady s s.active false
  | .drainB => setReady s s.active false
  | .drainSilence => s

/-- The handler's choice of the next transfer (60_exceptions.md R281): the other buffer if its flag is true, and then
ACTIVE moves to it; the silence buffer if not, and then ACTIVE stays. -/
def rearm (s : State) : Except Fault State :=
  let o := otherSlot s.active
  if getReady s o then
    (arm { s with active := o } (slotBase s.cfg o)).map fun t => { t with txState := drainOf o }
  else
    (arm s (silenceBase s.cfg)).map fun t => { t with txState := .drainSilence }

/-- What the handler does once IRQ_PEND is cleared (60_exceptions.md R281): with TXSTATE = IDLE (spurious,
unreachable) nothing more (U13, log 16); else clear the drained buffer's flag and arm the next transfer. -/
def serveCompletion (s : State) : Except Fault State :=
  match s.txState with
  | .idle => .ok s
  | .drainA => rearm (clearDrained s)
  | .drainB => rearm (clearDrained s)
  | .drainSilence => rearm (clearDrained s)

/-- TAKING THE COMPLETION INTERRUPT: the one shared entry, which is the whole handler step IRQ
(60_exceptions.md R281). It saves nothing and changes no mode (R282), and its return is the end of the step (R283):
nothing is restored. -/
def takeCompletion (s : State) : Result := toResult (serveCompletion { s with irqPend := false })

/-- RESET (70_reset_and_hazards.md R310): every element of the table of 10_state.md R47 at its reset value, TXOUT and
the responses empty, a command in progress abandoned. The configuration and the inputs are not state of the DATC and
stay (log 13). -/
def hardwareReset (s : State) : State :=
  { State.powerOn s.cfg with
    src := s.src
    engineAvailable := s.engineAvailable
    portP := s.portP
    portC := s.portC
    turns := s.turns
    tick := s.tick }

end Sys2Proof.Machine
end

