-- ==== Sys2Proof/Machine/Flags.lean ====
section
/-! DEFINITION. What is computed from the status flags. The DATC has no arithmetic condition codes
(10_state.md R43); its flags are the booleans of R25, R30 to R32, R35 and R39. -/

namespace Sys2Proof.Machine

/-- tgt(): the buffer "currently available for the next `submit`" (41_double_buffer.md R122). -/
def tgt (s : State) : Slot :=
  match s.txState with
  | .idle => s.active
  | .drainA => otherSlot s.active
  | .drainB => otherSlot s.active
  | .drainSilence => otherSlot s.active

/-- The flag ISRDY reports and the wait step tests: READY[tgt()] = false (R123, R127). -/
def targetFree (s : State) : Bool := !getReady s (tgt s)

/-- Whether the WRITE in progress is filling or publishing buffer i (10_state.md R29). -/
def beingFilled (s : State) (i : Slot) : Bool :=
  (s.wphase = .fill || s.wphase = .publish) && s.wt = i

/-- OWNER(i) (10_state.md R29). -/
def owner (s : State) (i : Slot) : Ownership :=
  if s.txState = drainOf i then .draining
  else if beingFilled s i then .filling
  else if getReady s i then .pending
  else .free

/-- The engine's word step is enabled (42_transmitter_binding.md R157). -/
def engineEnabled (s : State) : Bool := s.engBusy && s.smEn

/-- The handler step is enabled (60_exceptions.md R281). -/
def handlerEnabled (s : State) : Bool := s.irqPend && s.irqEn

end Sys2Proof.Machine
end

