-- ==== Sys2Proof/Machine/Gain.lean ====
section
/-! DEFINITION. The gain smoothing processor: TARGET, RAMP, RND, APPLY, and SMUTE, GMUTE, SVOL, GVOL, GVRNG
(43_gain_smoothing.md). -/

namespace Sys2Proof.Machine

/-- P4 of 43_gain_smoothing.md R184 for a positive value q at the integer a, without a root:
|q − 10^(a/5120)| ≤ eps × 10^(a/5120), each side raised to the power 5120 (log 26). -/
abbrev withinTolerance (eps q : Rat) (a : Int) : Prop :=
  q ^ dbDecade ≤ (1 + eps) ^ dbDecade * 10 ^ a ∧ (eps < 1 → (1 - eps) ^ dbDecade * 10 ^ a ≤ q ^ dbDecade)

/-- Two rationals around 10^(1/5120), after k halvings of an interval of length below 1. -/
def rootBracket : Nat → Rat × Rat
  | 0 => (1 + 1 / dbDecade, 2)
  | k + 1 =>
    let mid := ((rootBracket k).1 + (rootBracket k).2) / 2
    if mid ^ dbDecade ≤ 10 then (mid, (rootBracket k).2) else ((rootBracket k).1, mid)

/-- Two rationals around 10^(1/5120), no further apart than a positive tolerance. -/
def rootNear (eps : Rat) : Rat × Rat := rootBracket (1 / eps).ceil.toNat

/-- The value proposed for DB2LIN: a free positive rational (log 7). -/
def proposedGain (c : Config) (a : Int) : Rat :=
  ((Config.freeGain c.db2linFn a).1 + 1 : Rat) / ((Config.freeGain c.db2linFn a).2 + 1 : Rat)

/-- DB2LIN at a + 1, from its value g at a: the value proposed if it is greater than g and within the tolerance; else g
times a rational beside 10^(1/5120), on the side that brings it nearer to the exact conversion. -/
def gainAbove (c : Config) (a : Int) (g : Rat) : Rat :=
  if g < proposedGain c (a + 1) ∧ withinTolerance c.db2linEps (proposedGain c (a + 1)) (a + 1) then proposedGain c (a + 1)
  else g * (if 10 ^ a ≤ g ^ dbDecade then (rootNear c.db2linEps).1 else (rootNear c.db2linEps).2)

/-- DB2LIN at a − 1, from its value g at a, in the same way. -/
def gainBelow (c : Config) (a : Int) (g : Rat) : Rat :=
  if proposedGain c (a - 1) < g ∧ withinTolerance c.db2linEps (proposedGain c (a - 1)) (a - 1) then proposedGain c (a - 1)
  else g / (if 10 ^ a ≤ g ^ dbDecade then (rootNear c.db2linEps).2 else (rootNear c.db2linEps).1)

/-- DB2LIN at a natural number. -/
def db2linUp (c : Config) : Nat → Rat
  | 0 => 1
  | n + 1 => gainAbove c n (db2linUp c n)

/-- DB2LIN at the negative of a natural number. -/
def db2linDown (c : Config) : Nat → Rat
  | 0 => 1
  | n + 1 => gainBelow c (-n) (db2linDown c n)

/-- DB2LIN, a configuration function of which R184 says P1 (1 at 0), P2 (strictly growing), P3 (positive), P4 (within
DB2LIN_EPS of 10^(a/5120)) and P5 (a function of its argument alone): every such function of the integers arises from
the values proposed, and nothing else does (log 7). -/
def db2lin (c : Config) : Int → Rat
  | .ofNat n => db2linUp c n
  | .negSucc n => db2linDown c (n + 1)

/-- muted(c) (43_gain_smoothing.md R182). -/
def sideMuted (s : State) (c : Side) : Bool := getMute s .master || getMute s (sideChan c)

/-- att(c), exact, neither wrapped nor saturated (43_gain_smoothing.md R182). -/
def attenuation (s : State) (c : Side) : Int := getVol s .master + getVol s (sideChan c)

/-- TARGET(c) (43_gain_smoothing.md R183, R185). -/
def target (s : State) (c : Side) : Rat :=
  if sideMuted s c || decide (attenuation s c ≤ attFloor) then 0 else db2lin s.cfg (attenuation s c)

/-- g(c, k) = g0 + k × (g1 − g0) / N (43_gain_smoothing.md R187). -/
def rampGain (g0 g1 : Rat) (n k : Nat) : Rat := g0 + (k : Rat) * (g1 - g0) / (n : Rat)

/-- RND: truncation toward zero (43_gain_smoothing.md R188, decision D14, log 8). -/
def rnd (q : Rat) : Int := if 0 ≤ q then q.floor else -((-q).floor)

/-- FS_MAX(D) (43_gain_smoothing.md R189). -/
def fullScaleMax (d : Nat) : Int := 2 ^ (d - 1) - 1

/-- FS_MIN(D) (43_gain_smoothing.md R189). -/
def fullScaleMin (d : Nat) : Int := -2 ^ (d - 1)

/-- APPLY(s, g, D) (43_gain_smoothing.md R189). -/
def applyGain (x : Int) (g : Rat) (d : Nat) : Int :=
  max (fullScaleMin d) (min (fullScaleMax d) (rnd ((x : Rat) * g)))

/-- The clamp of SVOL (43_gain_smoothing.md R194). -/
def clampVol (c : Config) (v : Int) : Int := max c.volMin (min c.volMax v)

/-- The value GVRNG reports (43_gain_smoothing.md R196). -/
def rangeValue (c : Config) : RangeItem → Int
  | .min => c.volMin
  | .max => c.volMax
  | .res => c.volRes

/-- SMUTE ch, m (43_gain_smoothing.md R192). -/
def execSmute (ch : Chan) (m : Bool) (s : State) : Result :=
  .next (respond (setMute s ch m) .c .ok 0#32)

/-- GMUTE ch: the register, not the effective mute (43_gain_smoothing.md R193). -/
def execGmute (ch : Chan) (s : State) : Result :=
  .next (respond s .c .ok (boolValue (getMute s ch)))

/-- SVOL ch, vol: clamped, never refused, not snapped to VOL_RES (43_gain_smoothing.md R194). -/
def execSvol (ch : Chan) (vol : Int) (s : State) : Result :=
  .next (respond (setVol s ch (clampVol s.cfg vol)) .c .ok 0#32)

/-- GVOL ch: the stored volume, zero-extended from 16 bits (43_gain_smoothing.md R195). -/
def execGvol (ch : Chan) (s : State) : Result :=
  .next (respond s .c .ok (signedValue (getVol s ch)))

/-- GVRNG item (43_gain_smoothing.md R196). -/
def execGvrng (item : RangeItem) (s : State) : Result :=
  .next (respond s .c .ok (signedValue (rangeValue s.cfg item)))

end Sys2Proof.Machine
end

