-- ==== Sys2Proof/Machine/Format.lean ====
section
/-! DEFINITION. The sample ingest and format adapter: SAMPLE and PROCESS, the body of WRITE's accept step
(44_format_adapter.md). -/

namespace Sys2Proof.Machine

/-- The SRC address of the container of channel c in frame k (44_format_adapter.md R223); a mono format's does not
depend on c (R224). -/
def sampleAddr (fmt : Fmt) (ptr k : Nat) (c : Side) : Nat :=
  match c with
  | .left => ptr + k * frameBytes fmt
  | .right => ptr + k * frameBytes fmt + (if fmtStereo fmt then containerBytes fmt else 0)

/-- SAMPLE(FMT, PTR, k, c): a signed integer of depth D; the spare bits of a 24-bit container are ignored
(44_format_adapter.md R220, R223). -/
def sample (s : State) (fmt : Fmt) (ptr k : Nat) (c : Side) : Int :=
  let addr := sampleAddr fmt ptr k c
  if fmtWide fmt then
    if fmtLeftJustified fmt then ((memRead4 s addr).extractLsb' 8 24).toInt
    else ((memRead4 s addr).extractLsb' 0 24).toInt
  else (memRead2 s addr).toInt

/-- The sample of channel c in frame k after its gain, clamped to its own depth (44_format_adapter.md R222). -/
def scaledSample (s : State) (fmt : Fmt) (ptr n k : Nat) (c : Side) : Int :=
  applyGain (sample s fmt ptr k c) (rampGain (getGainCur s c) (target s c) n k) (fmtDepth fmt)

/-- One PACKED16 word: left in the high half, right in the low half (44_format_adapter.md R221, R229). -/
def packWord (yL yR : Int) : Word := BitVec.ofInt 16 yL ++ BitVec.ofInt 16 yR

/-- One LJ24 word: the sample shifted left by the bit-depth gap 32 − D (44_format_adapter.md R222, R225). -/
def justifyWord (y : Int) (d : Nat) : Word := BitVec.ofInt 32 (y * 2 ^ (32 - d))

/-- The native words of frame k (44_format_adapter.md R222, R226). -/
def frameWords (s : State) (fmt : Fmt) (ptr n k : Nat) : List Word :=
  match s.cfg.nativeFmt with
  | .packed16 => [packWord (scaledSample s fmt ptr n k .left) (scaledSample s fmt ptr n k .right)]
  | .lj24 => [justifyWord (scaledSample s fmt ptr n k .left) (fmtDepth fmt),
              justifyWord (scaledSample s fmt ptr n k .right) (fmtDepth fmt)]

/-- STAGE after PROCESS: the frames' words, then zero words up to W (44_format_adapter.md R222, R227). -/
def stageWords (s : State) (fmt : Fmt) (ptr n : Nat) : List Word :=
  (List.range n).flatMap (frameWords s fmt ptr n) ++
    List.replicate (bufWords s.cfg - n * wordsPerFrame s.cfg) 0#32

/-- PROCESS(FMT, PTR, N) (44_format_adapter.md R222): every word of STAGE is written; GAIN_TGT is the target; GAIN_CUR
becomes the target when N ≥ 1 and stays when N = 0 (43_gain_smoothing.md R190, R191). -/
def process (s : State) (fmt : Fmt) (ptr n : Nat) : State :=
  { s with
    stage := stageWords s fmt ptr n
    gainTgt0 := target s .left
    gainTgt1 := target s .right
    gainCur0 := if 1 ≤ n then target s .left else s.gainCur0
    gainCur1 := if 1 ≤ n then target s .right else s.gainCur1 }

end Sys2Proof.Machine
end

