-- ==== Sys2Proof/Machine/DoubleBuffer.lean ====
section
/-! DEFINITION. The transmit double-buffer: the four kinds of step of WRITE, and ISRDY (41_double_buffer.md). -/

namespace Sys2Proof.Machine

/-- WRITE with FMT wider than the native word's sample (41_double_buffer.md R121, 44_format_adapter.md R228). -/
def badFormat (s : State) (fmt : Fmt) : Bool := fmtWide fmt && decide (s.cfg.nativeFmt = .packed16)

/-- WRITE with a misaligned PTR, or a block past the top of SRC (20_memory.md R65). -/
def badAddr (fmt : Fmt) (ptr cnt : Nat) : Bool :=
  decide (ptr % containerBytes fmt ≠ 0) || decide (2 ^ 32 < ptr + cnt * frameBytes fmt)

/-- WRITE fmt, ptr, cnt: the meaning of the command is its accept step (41_double_buffer.md R121, log 14). The errors
in the priority of 60_exceptions.md R273, each with nothing else changed; else PROCESS, and the producer waits for a
buffer. The later steps are `waitStep`, `fillStep` and `publishStep`. -/
def execWrite (fmt : Fmt) (ptr cnt : Nat) (s : State) : Result :=
  if s.failed then .next (answerError s .p .errFailed)
  else if !s.inited then .next (answerError s .p .errNotInit)
  else if badFormat s fmt then .next (answerError s .p .errFormat)
  else if s.cfg.bufFrames < cnt then .next (answerError s .p .errCount)
  else if badAddr fmt ptr cnt then .next (answerError s .p .errAddr)
  else .next { process s fmt ptr cnt with wphase := .wait }

/-- WRITE, wait step (41_double_buffer.md R123). While READY[tgt()] is true the step is not enabled: the producer is
held and nothing changes. The target is computed anew at each test (70_reset_and_hazards.md R324). -/
def waitStep (s : State) : Result :=
  if targetFree s then .next { s with wt := tgt s, widx := 0, wphase := .fill } else .next s

/-- WRITE, fill step (41_double_buffer.md R124): one word of STAGE into BUF[WT], in ascending order. -/
def fillStep (s : State) : Result :=
  match s.stage[s.widx]? with
  | none => .fault (.stageWordAbsent s.widx)
  | some w =>
    match bufWrite s (slotBase s.cfg s.wt + s.widx) w with
    | .error f => .fault f
    | .ok t => .next { t with
        widx := s.widx + 1
        wphase := if s.widx + 1 = bufWords s.cfg then .publish else .fill }

/-- The start on idle: ARM on the buffer just published, and TXSTATE leaves IDLE; when transmission runs already the
engine is not touched (41_double_buffer.md R125). -/
def startIfIdle (s : State) : Except Fault State :=
  if s.txState = .idle then
    (arm s (slotBase s.cfg s.wt)).map fun t => { t with txState := drainOf s.wt }
  else .ok s

/-- WRITE, publish step (41_double_buffer.md R125). -/
def publishStep (s : State) : Result :=
  toResult ((startIfIdle (setReady s s.wt true)).map fun t => respond { t with wphase := .none } .p .ok 0#32)

/-- ISRDY (41_double_buffer.md R127). -/
def execIsrdy (s : State) : Result :=
  if s.failed then .next (answerError s .p .errFailed)
  else if !s.inited then .next (answerError s .p .errNotInit)
  else .next (respond s .p .ok (boolValue (targetFree s)))

end Sys2Proof.Machine
end

