-- ==== Sys2Proof/Machine/Clock.lean ====
section
/-! DEFINITION. The clock configurator: CLOCKCFG and GRATE (45_clock_configurator.md). -/

namespace Sys2Proof.Machine

/-- A divider as 16.8 fixed point, if representable: at least 1.0 and at most 16 integer bits
(45_clock_configurator.md R250). `den` is the frequency wanted. -/
def fixedDivider (c : Config) (den : Nat) : Option Nat :=
  let d := c.sysClkHz * 2 ^ divFracBits / den
  if d < 2 ^ divFracBits ∨ 2 ^ (divIntBits + divFracBits) ≤ d then none else some d

/-- Serial program cycles per second at rate r (R250). -/
def serialCycles (c : Config) (r : Nat) : Nat := r * 2 * slotBits c * c.cyclesPerBit

/-- CLOCKCFG(r) (R250): the pair (cd, md), or none where the rule answers not ok. -/
def clockCfg (c : Config) (r : Nat) : Option (Divider × Divider) :=
  if r = 0 then none
  else
    match fixedDivider c (serialCycles c r) with
    | none => none
    | some cd =>
      if c.hasMclk then
        match fixedDivider c (r * c.mclkMult) with
        | none => none
        | some md => some (BitVec.ofNat 24 cd, BitVec.ofNat 24 md)
      else some (BitVec.ofNat 24 cd, 0#24)

/-- GRATE (R254): answers RATE; writes no state but the response. -/
def execGrate (s : State) : Result := .next (respond s .c .ok s.rate)

end Sys2Proof.Machine
end

