-- ==== Sys2Proof/Machine/Transmitter.lean ====
section
/-! DEFINITION. The hardware transmitter binding: INIT and the engine's word step (42_transmitter_binding.md). -/

namespace Sys2Proof.Machine

/-- The stop of INIT: state machine, interrupt and engine off, a pending completion discarded (R150, R152). -/
def stopTransmit (s : State) : State :=
  { s with
    smEn := false
    irqEn := false
    engBusy := false
    engCnt := 0#32
    engAddr := 0#32
    irqPend := false }

/-- The reconfiguration of INIT: clock, flags, active index, transmit state and gains (R150, R151). -/
def reconfigure (s : State) (r : Nat) (cd md : Divider) : State :=
  { s with
    rate := BitVec.ofNat 32 r
    clkDiv := cd
    mclkDiv := md
    ready0 := false
    ready1 := false
    active := .a
    txState := .idle
    gainCur0 := 1
    gainCur1 := 1
    gainTgt0 := 1
    gainTgt1 := 1 }

/-- The start of INIT (R150). -/
def startTransmit (s : State) : State := { s with irqEn := true, smEn := true, inited := true }

/-- Stop, reconfigure and start, one atomic sequence with no partial state seen (R150). -/
def restart (s : State) (r : Nat) (cd md : Divider) : State :=
  startTransmit (reconfigure (stopTransmit s) r cd md)

/-- INIT rate (R150): the errors in the priority of 60_exceptions.md R274; a transfer-engine channel is claimed once
and kept (R152); without one, FAILED latches (R153). ENGINE_AVAILABLE is read only where a claim is made (U20). -/
def execInit (r : Nat) (s : State) : Result :=
  if s.failed then .next (answerError s .p .errFailed)
  else
    match clockCfg s.cfg r with
    | none => .next (answerError s .p .errRate)
    | some (cd, md) =>
      if s.engineClaimed then .next (respond (restart s r cd md) .p .ok 0#32)
      else if s.engineAvailable then .next (respond (restart { s with engineClaimed := true } r cd md) .p .ok 0#32)
      else .next (answerError { s with failed := true } .p .errNoEngine)

/-- The end of a transfer: ENG_BUSY falls and the completion becomes pending, if it is enabled (R157). -/
def completeTransfer (s : State) : State :=
  { s with engBusy := false, irqPend := if s.irqEn then true else s.irqPend }

/-- After a word has moved: the address and the count move on, and a count of zero ends the transfer (R157). -/
def advanceEngine (s : State) : State :=
  let t := { s with engAddr := s.engAddr + 1#32, engCnt := s.engCnt - 1#32 }
  if t.engCnt = 0#32 then completeTransfer t else t

/-- ENGWORD, the engine's word step (R157), where it is enabled. -/
def engineWord (s : State) : Result :=
  if s.engCnt = 0#32 then .fault .transferExhausted
  else
    match bufRead s s.engAddr.toNat with
    | .error f => .fault f
    | .ok w => .next (advanceEngine (txPush s w))

end Sys2Proof.Machine
end

