-- ==== Sys2Proof/Machine/Dispatch.lean ====
section
/-! DEFINITION. The meaning of each command, one arm per constructor of Instr. -/

namespace Sys2Proof.Machine

def exec (i : Instr) (s : State) : Host.Outcome State Fault Refusal :=
  match i with
  -- port P
  | .init rate => Sys2Proof.Machine.execInit rate s
  | .write fmt ptr cnt => Sys2Proof.Machine.execWrite fmt ptr cnt s
  | .isrdy => Sys2Proof.Machine.execIsrdy s
  -- port C
  | .smute ch m => Sys2Proof.Machine.execSmute ch m s
  | .gmute ch => Sys2Proof.Machine.execGmute ch s
  | .svol ch vol => Sys2Proof.Machine.execSvol ch vol s
  | .gvol ch => Sys2Proof.Machine.execGvol ch s
  | .gvrng item => Sys2Proof.Machine.execGvrng item s
  | .grate => Sys2Proof.Machine.execGrate s

end Sys2Proof.Machine
end

