-- ==== Sys2Proof/Machine/Schedule.lean ====
section
/-! DEFINITION. What each agent does on its turn, and how the next turn is chosen (10_state.md R22, 30_encoding.md R90,
R91, R98). -/

namespace Sys2Proof.Machine

/-- A doubleword accepted on a port: the command it decodes to runs; an illegal one is answered ERR_ILLEGAL with
nothing else changed (30_encoding.md R98). -/
def acceptWord (port : Port) (cw : DWord) (s : State) : Result :=
  match decode port cw with
  | .ok i => exec i s
  | .error _ => .next (answerError s port .errIllegal)

/-- Port P accepts only when WPHASE = NONE (30_encoding.md R91); with nothing presented nothing happens. -/
def acceptP (s : State) : Result :=
  match s.portP with
  | [] => .next s
  | cw :: rest => acceptWord .p cw { s with portP := rest }

/-- The producer's turn: the next step of the WRITE in progress, or else a command on port P (10_state.md R22). -/
def producerTurn (s : State) : Result :=
  match s.wphase with
  | .none => acceptP s
  | .wait => waitStep s
  | .fill => fillStep s
  | .publish => publishStep s

/-- The control context's turn: port C accepts at any time (30_encoding.md R90). -/
def controlTurn (s : State) : Result :=
  match s.portC with
  | [] => .next s
  | cw :: rest => acceptWord .c cw { s with portC := rest }

/-- The engine's turn: a word step where one is enabled (42_transmitter_binding.md R157). -/
def engineTurn (s : State) : Result := if engineEnabled s then engineWord s else .next s

/-- The handler's turn: the handler step where it is enabled (60_exceptions.md R281). -/
def handlerTurn (s : State) : Result := if handlerEnabled s then takeCompletion s else .next s

/-- An agent's turn. With no step enabled the agent does not move: nothing changes (log 4). -/
def agentTurn (a : Agent) (s : State) : Result :=
  match a with
  | .producer => producerTurn s
  | .control => controlTurn s
  | .engine => engineTurn s
  | .handler => handlerTurn s

/-- A scheduled turn: an agent's, or a move of the surroundings. -/
def takeTurn (t : Turn) (s : State) : Result :=
  match t with
  | .agent a => agentTurn a s
  | .reset => .next (hardwareReset s)
  | .store addr value => .next { s with src := writeCell s.src addr.toNat value }
  | .available yes => .next { s with engineAvailable := yes }

/-- The turn that comes next: the first one scheduled, or a free choice among the agents (log 2). -/
def nextTurn (s : State) : Turn :=
  match s.turns with
  | [] => .agent (Config.freeAgent s.tick)
  | t :: _ => t

/-- The state in which that turn is taken: it is no longer scheduled, and the step is counted. -/
def startTurn (s : State) : State := { s with turns := s.turns.tail, tick := s.tick + 1 }

end Sys2Proof.Machine
end

