-- ==== Sys2Proof/Machine/Step.lean ====
section
/-! DEFINITION. One step of the DATC: one atomic step of one agent, or one move of the surroundings
(00_scope.md R11). -/

namespace Sys2Proof.Machine

/-- One atomic step: take the next turn. -/
def step (s : State) : Host.Outcome State Fault Refusal := takeTurn (nextTurn s) (startTurn s)

/-- `s` with the doubleword `cw` presented first on a port, that port accepting, and its agent's turn next. -/
def State.presenting (s : State) (port : Port) (cw : DWord) : State :=
  match port with
  | .p => { s with wphase := .none, portP := cw :: s.portP, turns := .agent .producer :: s.turns }
  | .c => { s with portC := cw :: s.portC, turns := .agent .control :: s.turns }

/-- `s` with the doubleword numbered `w` presented on the port its opcode belongs to, so that the very next step
accepts it (logs 3 and 24). -/
def State.withFetchWord (s : State) (nbits w : Nat) : State :=
  s.presenting (tablePort (tableWord nbits w)) (tableWord nbits w)

end Sys2Proof.Machine
end

