-- ==== Sys2Proof/Safety.lean ====
section
/-! DEFINITION. What counts as a safe state and a safe run: the bounds and invariants of 10_state.md (R33, R46) and the
ranges of 10_state.md R34, R36 and 43_gain_smoothing.md R186. -/

namespace Sys2Proof.Machine

/-- The buffer memory is canonical and lists only words of BUF[0] and BUF[1] (20_memory.md R63, R64); what is placed
in SRC is canonical and lies in its 32-bit address space (R60). -/
structure MemoryOk (s : State) : Prop where
  bufCanonical : Memory.wf s.buf = true
  bufInMap : ∀ a v, readCell s.buf a = some v → a < silenceBase s.cfg
  srcCanonical : Memory.wf s.src = true
  srcInMap : ∀ a v, readCell s.src a = some v → a < 2 ^ 32

/-- Every word of BUF[i] has a value. -/
def slotWritten (s : State) (i : Slot) : Prop :=
  ∀ j, j < bufWords s.cfg → (readCell s.buf (slotBase s.cfg i + j)).isSome = true

/-- The base the engine's transfer was armed on, by TXSTATE (10_state.md R27, R33). -/
def transferBase (s : State) : Nat :=
  match s.txState with
  | .idle => 0
  | .drainA => slotBase s.cfg .a
  | .drainB => slotBase s.cfg .b
  | .drainSilence => silenceBase s.cfg

/-- The ready-flag protocol: 10_state.md R46 (b), (c), (d), (f), (h). -/
structure FlagsOk (s : State) : Prop where
  /-- (b), (f): the buffer of the WRITE in progress is not marked ready before the publish step. -/
  fillingNotReady : (s.wphase = .fill ∨ s.wphase = .publish) → getReady s s.wt = false
  /-- (c), DRAIN_A. -/
  drainA : s.txState = .drainA → s.active = .a ∧ s.ready0 = true
  /-- (c), DRAIN_B. -/
  drainB : s.txState = .drainB → s.active = .b ∧ s.ready1 = true
  /-- (d). -/
  idle : s.txState = .idle → s.ready0 = false ∧ s.ready1 = false ∧ s.engBusy = false ∧ s.irqPend = false
  /-- (d), the buffer of a WRITE in progress. -/
  idleTarget : s.txState = .idle → (s.wphase = .fill ∨ s.wphase = .publish) → s.wt = s.active
  /-- (f). -/
  runningTarget : s.txState ≠ .idle → (s.wphase = .fill ∨ s.wphase = .publish) → s.wt = otherSlot s.active
  /-- (h). -/
  silence : s.txState = .drainSilence → getReady s s.active = false

/-- The transfer engine: 10_state.md R33 and R46 (e), (g). -/
structure EngineOk (s : State) : Prop where
  /-- R33: ENG_CNT ≤ W always. -/
  countBound : s.engCnt.toNat ≤ bufWords s.cfg
  /-- R33: ENG_ADDR + ENG_CNT is base + W. -/
  addrBound : s.engBusy = true → s.engAddr.toNat + s.engCnt.toNat = transferBase s + bufWords s.cfg
  /-- R157: "then ENG_CNT ≥ 1". -/
  countPositive : s.engBusy = true → 1 ≤ s.engCnt.toNat
  /-- R46 (g). -/
  pendingNotBusy : s.irqPend = true → s.engBusy = false
  /-- R46 (e), its last clause: a buffer whose flag is true has every word written (log 21). -/
  readyWritten : ∀ i, getReady s i = true → slotWritten s i
  /-- While transmission runs, a transfer is in flight or its completion is pending (R161, R283). -/
  running : s.txState ≠ .idle → s.engBusy = true ∨ s.irqPend = true

/-- The WRITE in progress: 10_state.md R40, R41 and 41_double_buffer.md R124. -/
structure WriteOk (s : State) : Prop where
  stageFull : (s.wphase = .wait ∨ s.wphase = .fill) → s.stage.length = bufWords s.cfg
  indexBound : s.wphase = .fill → s.widx < bufWords s.cfg
  filledSoFar : s.wphase = .fill → ∀ j, j < s.widx → (readCell s.buf (slotBase s.cfg s.wt + j)).isSome = true
  filledWhole : s.wphase = .publish → slotWritten s s.wt

/-- The lifecycle: 10_state.md R46 (i), 42_transmitter_binding.md R157, R161, 60_exceptions.md R275. -/
structure LifecycleOk (s : State) : Prop where
  /-- R46 (i). -/
  notInited : s.inited = false → s.txState = .idle ∧ s.wphase = .none
  /-- R157, R161: once initialised the completion interrupt and the state machine are enabled. -/
  enabled : s.inited = true → s.irqEn = true ∧ s.smEn = true ∧ s.engineClaimed = true
  /-- R275. -/
  failed : s.failed = true → s.inited = false ∧ s.engineClaimed = false

/-- Registers in their ranges: 10_state.md R34, R36, R38. -/
structure RangesOk (s : State) : Prop where
  /-- R36: VOL_MIN ≤ VOL[i] ≤ VOL_MAX. -/
  volume : ∀ ch, s.cfg.volMin ≤ getVol s ch ∧ getVol s ch ≤ s.cfg.volMax
  /-- R34: every gain is at least 0. -/
  gain : ∀ c, 0 ≤ getGainCur s c ∧ 0 ≤ getGainTgt s c
  /-- R38: MCLKDIV is 0 without a master clock. -/
  masterClock : s.cfg.hasMclk = false → s.mclkDiv = 0#24

/-- The invariants of the DATC (10_state.md R33, R46), for a configuration that meets R7. -/
structure SafeState (s : State) : Prop where
  config : s.cfg.valid = true
  memory : MemoryOk s
  flags : FlagsOk s
  engine : EngineOk s
  write : WriteOk s
  lifecycle : LifecycleOk s
  ranges : RangesOk s

/-- 43_gain_smoothing.md R186: the applied and target gains lie between 0 and 1. -/
def GainsInUnit (s : State) : Prop := ∀ c, (0 ≤ getGainCur s c ∧ getGainCur s c ≤ 1) ∧ (0 ≤ getGainTgt s c ∧ getGainTgt s c ≤ 1)

/-- The table of 30_encoding.md R94 with the field constraints of R95 and R98, in numbers: which doublewords are legal
commands on a port. OPC, SEL, CNT and ARG are the fields of R93. -/
def legalCommand (port : Port) (cw : DWord) : Prop :=
  let opc := cw.toNat / 2 ^ 56
  let sel := cw.toNat / 2 ^ 48 % 2 ^ 8
  let cnt := cw.toNat / 2 ^ 32 % 2 ^ 16
  let arg := cw.toNat % 2 ^ 32
  match port with
  | .p =>
    (opc = 0x01 ∧ sel = 0 ∧ cnt = 0) ∨
    (opc = 0x02 ∧ (sel = 0 ∨ sel = 1 ∨ sel = 2 ∨ sel = 3 ∨ sel = 6 ∨ sel = 7)) ∨
    (opc = 0x03 ∧ sel = 0 ∧ cnt = 0 ∧ arg = 0)
  | .c =>
    (opc = 0x10 ∧ sel ≤ 2 ∧ cnt = 0 ∧ arg ≤ 1) ∨
    (opc = 0x11 ∧ sel ≤ 2 ∧ cnt = 0 ∧ arg = 0) ∨
    (opc = 0x12 ∧ sel ≤ 2 ∧ cnt = 0 ∧ arg < 2 ^ 16) ∨
    (opc = 0x13 ∧ sel ≤ 2 ∧ cnt = 0 ∧ arg = 0) ∨
    (opc = 0x14 ∧ sel ≤ 2 ∧ cnt = 0 ∧ arg = 0) ∨
    (opc = 0x15 ∧ sel = 0 ∧ cnt = 0 ∧ arg = 0)

/-- A divider value that 45_clock_configurator.md R250 accepts: at least 1.0, at most 16 integer bits. -/
abbrev representable (d : Nat) : Prop := 2 ^ 8 ≤ d ∧ d < 2 ^ 24

/-- cd of 45_clock_configurator.md R250. -/
def serialDivider (c : Config) (r : Nat) : Nat := c.sysClkHz * 2 ^ 8 / (r * 2 * slotBits c * c.cyclesPerBit)

/-- md of 45_clock_configurator.md R250, where a master clock exists. -/
def masterDivider (c : Config) (r : Nat) : Nat := c.sysClkHz * 2 ^ 8 / (r * c.mclkMult)

/-- The rates CLOCKCFG answers ok (45_clock_configurator.md R250). -/
abbrev rateAccepted (c : Config) (r : Nat) : Prop :=
  r ≠ 0 ∧ representable (serialDivider c r) ∧ (c.hasMclk = true → representable (masterDivider c r))

/-- The legal range of a sample of depth d, FS_MIN to FS_MAX (43_gain_smoothing.md R189). -/
abbrev inFullScale (d : Nat) (x : Int) : Prop := -2 ^ (d - 1) ≤ x ∧ x ≤ 2 ^ (d - 1) - 1

/-- The reset table of 10_state.md R47, row by row. A row whose value is "unspecified" has no word with a value. -/
structure ResetTable (t : State) : Prop where
  buffers : ∀ a, a < silenceBase t.cfg → readCell t.buf a = none
  silence : ∀ a, silenceBase t.cfg ≤ a → a < 3 * bufWords t.cfg → bufRead t a = .ok 0#32
  ready : t.ready0 = false ∧ t.ready1 = false
  active : t.active = .a
  txState : t.txState = .idle
  engineClaimed : t.engineClaimed = false
  engine : t.engAddr = 0#32 ∧ t.engCnt = 0#32 ∧ t.engBusy = false
  enables : t.irqEn = false ∧ t.irqPend = false ∧ t.smEn = false
  gains : t.gainCur0 = 1 ∧ t.gainCur1 = 1 ∧ t.gainTgt0 = 1 ∧ t.gainTgt1 = 1
  mutes : t.mute0 = false ∧ t.mute1 = false ∧ t.mute2 = false
  volumes : t.vol0 = 0#16 ∧ t.vol1 = 0#16 ∧ t.vol2 = 0#16
  rate : t.rate = BitVec.ofNat 32 t.cfg.defaultRate
  dividers : t.clkDiv = 0#24 ∧ t.mclkDiv = 0#24
  lifecycle : t.inited = false ∧ t.failed = false
  producer : t.wphase = .none ∧ t.wt = .a ∧ t.widx = 0
  stage : t.stage = []
  logs : t.txOut = [] ∧ t.respP = [] ∧ t.respC = []

/-- A safe step: the machine answers a next state, neither a fault nor a refusal. -/
def Steps (s : State) : Prop := ∃ t, step s = .next t

/-- `k` steps in a row, to the state reached, if none of them stops. -/
def stepsTo : Nat → State → Option State
  | 0, s => some s
  | k + 1, s =>
    match step s with
    | .next t => stepsTo k t
    | .fault _ => none
    | .refused _ => none

end Sys2Proof.Machine
end

