-- ==== Sys2Proof/Certificates/Slice0/Obligations.lean ====
section
/-! DEFINITION. The statements for the provers. Each docstring cites the rule of spec/ it formalises.

`turns` (the schedule) and `tick` (the count of steps) are the model's own fields (log 2): a statement about `step` says
whose turn comes next, and that this turn is spent and counted. No statement rests on the value of a free value. -/

open Sys2Proof Sys2Proof.Machine

/-! ### Encoding -/

/-- 30_encoding.md R93 to R95: the decoder reads back every command the encoder writes, on the command's port, with
every operand at every value its field admits. -/
def Obligations.DecodeEncodeRoundTrip : Prop :=
  ∀ i : Instr, i.wf = true → decode i.port (encode i) = .ok i

/-- 30_encoding.md R98, R99: a legal doubleword is one command only, and no bit of it is dropped. -/
def Obligations.EncodeDecodeRoundTrip : Prop :=
  ∀ (port : Port) (cw : DWord) (i : Instr), decode port cw = .ok i → i.wf = true ∧ encode i = cw

/-- 30_encoding.md R94, R95, R98: the decoder accepts exactly the doublewords of the table. -/
def Obligations.LegalDoublewordsAreTheTable : Prop :=
  ∀ (port : Port) (cw : DWord), (∃ i, decode port cw = .ok i) ↔ legalCommand port cw

/-- The example words of 30_encoding.md R101, each decoded on its port. -/
def Obligations.SpecExampleEncodings : Prop :=
  decode .p 0x010000000000BB80#64 = .ok (.init 48000) ∧
  decode .p 0x0200000400001000#64 = .ok (.write .m16 0x1000 4) ∧
  decode .c 0x1001000000000001#64 = .ok (.smute .ch1 true) ∧
  decode .c 0x120200000000EC00#64 = .ok (.svol .master (-5120))

/-! ### Ports and steps -/

/-- 30_encoding.md R98: an illegal doubleword is answered ERR_ILLEGAL with no other change of state, on port P only when
port P accepts. -/
def Obligations.IllegalDoublewordIsAnswered : Prop :=
  (∀ (s : State) (cw : DWord) (rest : List DWord) (ts : List Turn),
    s.turns = .agent .producer :: ts → s.wphase = .none → s.portP = cw :: rest → ¬ legalCommand .p cw →
    step s = .next { s with
      turns := ts, tick := s.tick + 1, portP := rest, respP := s.respP ++ [0x0100000000000000#64] }) ∧
  (∀ (s : State) (cw : DWord) (rest : List DWord) (ts : List Turn),
    s.turns = .agent .control :: ts → s.portC = cw :: rest → ¬ legalCommand .c cw →
    step s = .next { s with
      turns := ts, tick := s.tick + 1, portC := rest, respC := s.respC ++ [0x0100000000000000#64] })

/-- 00_scope.md R11, 30_encoding.md R90, R91: on its agent's turn the doubleword presented first is accepted, and the
step is the command's meaning in the state where the turn is spent and the doubleword taken off its port. -/
def Obligations.StepRunsAcceptedCommand : Prop :=
  (∀ (s : State) (cw : DWord) (rest : List DWord) (ts : List Turn) (i : Instr),
    s.turns = .agent .producer :: ts → s.wphase = .none → s.portP = cw :: rest → decode .p cw = .ok i →
    i.port = .p ∧ step s = exec i { s with turns := ts, tick := s.tick + 1, portP := rest }) ∧
  (∀ (s : State) (cw : DWord) (rest : List DWord) (ts : List Turn) (i : Instr),
    s.turns = .agent .control :: ts → s.portC = cw :: rest → decode .c cw = .ok i →
    i.port = .c ∧ step s = exec i { s with turns := ts, tick := s.tick + 1, portC := rest })

/-- The model's own interface (logs 3 and 24): `withFetchWord` makes the very next step run the table word's command. -/
def Obligations.FetchWordRunsNext : Prop :=
  ∀ (s : State) (nbits w : Nat) (i : Instr), decodeTableWord nbits w = some i →
    (i.port = .p → step (s.withFetchWord nbits w) = exec i { s with wphase := .none, tick := s.tick + 1 }) ∧
    (i.port = .c → step (s.withFetchWord nbits w) = exec i { s with tick := s.tick + 1 })

/-- 30_encoding.md R91: while a WRITE is in progress port P accepts nothing, and the only answer sent on it is the
publish step's OK. -/
def Obligations.BusyPortAcceptsNothing : Prop :=
  ∀ (s t : State), s.wphase ≠ .none → nextTurn s ≠ .reset → step s = .next t →
    t.portP = s.portP ∧
    (t.respP = s.respP ∨
      (s.wphase = .publish ∧ nextTurn s = .agent .producer ∧ t.wphase = .none ∧
        t.respP = s.respP ++ [0x0000000000000000#64]))

/-! ### INIT and the clock -/

/-- 42_transmitter_binding.md R150 to R152: INIT with a usable rate and an engine claimed or available stops,
reconfigures and restarts the transmit path in one step. MUTE, VOL, the buffers, STAGE, TXOUT and the producer's phase
stay as they are. -/
def Obligations.InitRestartsTransmitPath : Prop :=
  ∀ (s : State) (r : Nat), r < 2 ^ 32 → s.failed = false → rateAccepted s.cfg r →
    (s.engineClaimed = true ∨ s.engineAvailable = true) →
    exec (.init r) s = .next { s with
      engineClaimed := true
      engBusy := false, engCnt := 0#32, engAddr := 0#32, irqPend := false
      rate := BitVec.ofNat 32 r
      clkDiv := BitVec.ofNat 24 (serialDivider s.cfg r)
      mclkDiv := if s.cfg.hasMclk then BitVec.ofNat 24 (masterDivider s.cfg r) else 0#24
      ready0 := false, ready1 := false, active := .a, txState := .idle
      gainCur0 := 1, gainCur1 := 1, gainTgt0 := 1, gainTgt1 := 1
      irqEn := true, smEn := true, inited := true
      respP := s.respP ++ [0x0000000000000000#64] }

/-- 60_exceptions.md R274, 42_transmitter_binding.md R153: the errors of INIT in priority. Only ERR_NO_ENGINE changes
state besides the response, and what it changes is FAILED. -/
def Obligations.InitErrorsInPriority : Prop :=
  ∀ (s : State) (r : Nat), r < 2 ^ 32 →
    (s.failed = true → exec (.init r) s = .next { s with respP := s.respP ++ [0x0300000000000000#64] }) ∧
    (s.failed = false → ¬ rateAccepted s.cfg r →
      exec (.init r) s = .next { s with respP := s.respP ++ [0x0500000000000000#64] }) ∧
    (s.failed = false → rateAccepted s.cfg r → s.engineClaimed = false → s.engineAvailable = false →
      exec (.init r) s = .next { s with failed := true, respP := s.respP ++ [0x0200000000000000#64] })

/-- 45_clock_configurator.md R250: the rates CLOCKCFG accepts, and the dividers it answers. -/
def Obligations.ClockDividersByRule : Prop :=
  ∀ (c : Config) (r : Nat),
    (rateAccepted c r → ∃ cd md, clockCfg c r = some (cd, md) ∧
      cd.toNat = serialDivider c r ∧ md.toNat = (if c.hasMclk then masterDivider c r else 0)) ∧
    (¬ rateAccepted c r → clockCfg c r = none)

/-- 45_clock_configurator.md R250: the divider is rounded down, so the frame rate is the one asked for or slightly
above it, never below. -/
def Obligations.FrameRateIsNeverBelowRequest : Prop :=
  ∀ (c : Config) (r : Nat) (cd md : Divider), c.valid = true → clockCfg c r = some (cd, md) →
    cd.toNat * (r * 2 * slotBits c * c.cyclesPerBit) ≤ c.sysClkHz * 2 ^ 8 ∧
    c.sysClkHz * 2 ^ 8 < (cd.toNat + 1) * (r * 2 * slotBits c * c.cyclesPerBit)

/-! ### WRITE -/

/-- 60_exceptions.md R273, 41_double_buffer.md R121: the errors of WRITE in priority, each with nothing else changed. -/
def Obligations.WriteErrorsInPriority : Prop :=
  ∀ (s : State) (f : Fmt) (ptr cnt : Nat),
    (s.failed = true →
      exec (.write f ptr cnt) s = .next { s with respP := s.respP ++ [0x0300000000000000#64] }) ∧
    (s.failed = false → s.inited = false →
      exec (.write f ptr cnt) s = .next { s with respP := s.respP ++ [0x0400000000000000#64] }) ∧
    (s.failed = false → s.inited = true → (fmtWide f = true ∧ s.cfg.nativeFmt = .packed16) →
      exec (.write f ptr cnt) s = .next { s with respP := s.respP ++ [0x0600000000000000#64] }) ∧
    (s.failed = false → s.inited = true → ¬ (fmtWide f = true ∧ s.cfg.nativeFmt = .packed16) →
      s.cfg.bufFrames < cnt →
      exec (.write f ptr cnt) s = .next { s with respP := s.respP ++ [0x0700000000000000#64] }) ∧
    (s.failed = false → s.inited = true → ¬ (fmtWide f = true ∧ s.cfg.nativeFmt = .packed16) →
      cnt ≤ s.cfg.bufFrames →
      (ptr % containerBytes f ≠ 0 ∨ 2 ^ 32 < ptr + cnt * frameBytes f) →
      exec (.write f ptr cnt) s = .next { s with respP := s.respP ++ [0x0800000000000000#64] })

/-- 44_format_adapter.md R222 to R227: the accept step of a WRITE that is not refused writes every word of STAGE (the
scaled, clamped, justified and packed samples, then zeros), GAIN_TGT and GAIN_CUR, and the producer waits. Nothing
else changes. -/
def Obligations.WriteAcceptProcessesBlock : Prop :=
  ∀ (s : State) (f : Fmt) (ptr cnt : Nat),
    s.failed = false → s.inited = true → ¬ (fmtWide f = true ∧ s.cfg.nativeFmt = .packed16) →
    cnt ≤ s.cfg.bufFrames → ptr % containerBytes f = 0 → ptr + cnt * frameBytes f ≤ 2 ^ 32 →
    ∃ t, exec (.write f ptr cnt) s = .next t ∧
      t = { s with
        stage := t.stage
        gainTgt0 := target s .left, gainTgt1 := target s .right
        gainCur0 := if cnt = 0 then s.gainCur0 else target s .left
        gainCur1 := if cnt = 0 then s.gainCur1 else target s .right
        wphase := .wait } ∧
      t.stage.length = bufWords s.cfg ∧
      (∀ k, k < cnt →
        let y (c : Side) := applyGain (sample s f ptr k c)
          (getGainCur s c + (k : Rat) * (target s c - getGainCur s c) / (cnt : Rat)) (fmtDepth f)
        (s.cfg.nativeFmt = .packed16 →
          t.stage[k]? = some (BitVec.ofInt 16 (y .left) ++ BitVec.ofInt 16 (y .right))) ∧
        (s.cfg.nativeFmt = .lj24 →
          t.stage[2 * k]? = some (BitVec.ofInt 32 (y .left * 2 ^ (32 - fmtDepth f))) ∧
          t.stage[2 * k + 1]? = some (BitVec.ofInt 32 (y .right * 2 ^ (32 - fmtDepth f))))) ∧
      (∀ j, cnt * wordsPerFrame s.cfg ≤ j → j < bufWords s.cfg → t.stage[j]? = some 0#32)

/-- 43_gain_smoothing.md R191, 41_double_buffer.md R121: a WRITE of no frames stages W zero words, leaves the applied
gains and sets the targets. -/
def Obligations.WriteOfNoFramesIsSilence : Prop :=
  ∀ (s : State) (f : Fmt) (ptr : Nat),
    s.failed = false → s.inited = true → ¬ (fmtWide f = true ∧ s.cfg.nativeFmt = .packed16) →
    ptr % containerBytes f = 0 → ptr ≤ 2 ^ 32 →
    exec (.write f ptr 0) s = .next { s with
      stage := List.replicate (bufWords s.cfg) 0#32
      gainTgt0 := target s .left, gainTgt1 := target s .right
      wphase := .wait }

/-- 20_memory.md R62, 44_format_adapter.md R220, R223: the sample of a channel, from the bytes of SRC in little-endian
order, two's complement, with the spare bits of a 24-bit container ignored. The right channel of an interleaved
format follows the left by one container. -/
def Obligations.SampleReadsLittleEndian : Prop :=
  ∀ (s : State) (f : Fmt) (ptr k : Nat) (c : Side),
    let a := ptr + k * frameBytes f + (if fmtStereo f = true ∧ c = .right then containerBytes f else 0)
    let b (j : Nat) : Int := (srcByte s (a + j)).toNat
    let signed (n : Nat) (v : Int) : Int := if v < 2 ^ (n - 1) then v else v - 2 ^ n
    (fmtWide f = false → sample s f ptr k c = signed 16 (b 0 + 256 * b 1)) ∧
    (fmtWide f = true → fmtLeftJustified f = false →
      sample s f ptr k c = signed 24 (b 0 + 256 * b 1 + 65536 * b 2)) ∧
    (fmtWide f = true → fmtLeftJustified f = true →
      sample s f ptr k c = signed 24 (b 1 + 256 * b 2 + 65536 * b 3))

/-- 44_format_adapter.md R224: a mono format gives both channels the same sample. -/
def Obligations.MonoFeedsBothChannels : Prop :=
  ∀ (s : State) (f : Fmt) (ptr k : Nat), fmtStereo f = false →
    sample s f ptr k .left = sample s f ptr k .right

/-! ### Gain -/

/-- 43_gain_smoothing.md R182, R183, R185: the target gain of a channel, from the master's and the channel's own mute
and volume. -/
def Obligations.TargetGainRule : Prop :=
  ∀ s : State,
    (s.mute2 = true → target s .left = 0 ∧ target s .right = 0) ∧
    (s.mute0 = true → target s .left = 0) ∧
    (s.mute1 = true → target s .right = 0) ∧
    (s.vol2.toInt + s.vol0.toInt ≤ -32768 → target s .left = 0) ∧
    (s.vol2.toInt + s.vol1.toInt ≤ -32768 → target s .right = 0) ∧
    (s.mute2 = false → s.mute0 = false → -32768 < s.vol2.toInt + s.vol0.toInt →
      target s .left = db2lin s.cfg (s.vol2.toInt + s.vol0.toInt)) ∧
    (s.mute2 = false → s.mute1 = false → -32768 < s.vol2.toInt + s.vol1.toInt →
      target s .right = db2lin s.cfg (s.vol2.toInt + s.vol1.toInt))

/-- 43_gain_smoothing.md R184, P1 to P3: in every configuration DB2LIN is 1 at 0, strictly growing and positive. P4 is
`DbToLinearIsWithinTolerance`. -/
def Obligations.DbToLinearLaws : Prop :=
  ∀ c : Config, db2lin c 0 = 1 ∧ (∀ a b : Int, a < b → db2lin c a < db2lin c b) ∧ (∀ a : Int, 0 < db2lin c a)

/-- 43_gain_smoothing.md R188: RND is the floor of a non-negative rational and the negated floor of the negation of a
negative one; it leaves integers alone and never increases the magnitude. -/
def Obligations.RoundingTruncates : Prop :=
  (∀ q : Rat, 0 ≤ q → (rnd q : Rat) ≤ q ∧ q < rnd q + 1) ∧
  (∀ q : Rat, q < 0 → q ≤ (rnd q : Rat) ∧ (rnd q : Rat) < q + 1) ∧
  (∀ n : Int, rnd (n : Rat) = n) ∧
  (∀ q : Rat, |(rnd q : Rat)| ≤ |q|)

/-- 43_gain_smoothing.md R189: the product is rounded and clamped to the full scale of the depth; gain 0 gives 0, gain
1 gives the sample, sample 0 gives 0. -/
def Obligations.ApplyClampsToFullScale : Prop :=
  ∀ (d : Nat) (x : Int) (g : Rat), (d = 16 ∨ d = 24) →
    inFullScale d (applyGain x g d) ∧
    (inFullScale d (rnd ((x : Rat) * g)) → applyGain x g d = rnd ((x : Rat) * g)) ∧
    (2 ^ (d - 1) - 1 < rnd ((x : Rat) * g) → applyGain x g d = 2 ^ (d - 1) - 1) ∧
    (rnd ((x : Rat) * g) < -2 ^ (d - 1) → applyGain x g d = -2 ^ (d - 1)) ∧
    applyGain x 0 d = 0 ∧ applyGain 0 g d = 0 ∧
    (inFullScale d x → applyGain x 1 d = x)

/-- 43_gain_smoothing.md R186: with a gain between 0 and 1 clipping never changes a value, and the magnitude does not
grow. -/
def Obligations.UnitGainNeverClips : Prop :=
  ∀ (d : Nat) (x : Int) (g : Rat), (d = 16 ∨ d = 24) → inFullScale d x → 0 ≤ g → g ≤ 1 →
    applyGain x g d = rnd ((x : Rat) * g) ∧ |applyGain x g d| ≤ |x|

/-- 43_gain_smoothing.md R187: the gain of frame k is g0 + k × (g1 − g0) / N: it starts at g0, moves by one step a
frame, would reach g1 at frame N, and stays between the two. -/
def Obligations.RampIsLinearAndMonotone : Prop :=
  ∀ (g0 g1 : Rat) (n : Nat), 1 ≤ n →
    rampGain g0 g1 n 0 = g0 ∧ rampGain g0 g1 n n = g1 ∧
    (∀ k, rampGain g0 g1 n (k + 1) - rampGain g0 g1 n k = (g1 - g0) / n) ∧
    (g0 ≤ g1 → ∀ k, k < n → g0 ≤ rampGain g0 g1 n k ∧ rampGain g0 g1 n k ≤ g1) ∧
    (g1 ≤ g0 → ∀ k, k < n → g1 ≤ rampGain g0 g1 n k ∧ rampGain g0 g1 n k ≤ g0)

/-- 43_gain_smoothing.md R197: a muted channel whose applied gain is already 0 contributes exactly zero to every frame
of the block, whatever its volume. -/
def Obligations.MutedChannelIsSilent : Prop :=
  ∀ (s : State) (f : Fmt) (ptr cnt k : Nat) (c : Side),
    (s.mute2 = true ∨ getMute s (sideChan c) = true) → getGainCur s c = 0 →
    scaledSample s f ptr cnt k c = 0 ∧
    (s.cfg.nativeFmt = .packed16 → ∀ w ∈ frameWords s f ptr cnt k,
      (c = .left → w.extractLsb' 16 16 = 0#16) ∧ (c = .right → w.extractLsb' 0 16 = 0#16)) ∧
    (s.cfg.nativeFmt = .lj24 →
      (c = .left → (frameWords s f ptr cnt k)[0]? = some 0#32) ∧
      (c = .right → (frameWords s f ptr cnt k)[1]? = some 0#32))

/-! ### The producer's later steps, and ISRDY -/

/-- 41_double_buffer.md R122, R123: the wait step passes when the target's flag is false, the target being computed
anew; while it is true the step is not enabled and the producer is held. That a turn of the held producer is then spent
and leaves the rest of the state as it was is the model's choice (log 4). -/
def Obligations.WaitStepHoldsOrPasses : Prop :=
  ∀ (s : State) (ts : List Turn), s.turns = .agent .producer :: ts → s.wphase = .wait →
    let i := if s.txState = .idle then s.active else otherSlot s.active
    (getReady s i = false →
      step s = .next { s with turns := ts, tick := s.tick + 1, wt := i, widx := 0, wphase := .fill }) ∧
    (getReady s i = true → step s = .next { s with turns := ts, tick := s.tick + 1 })

/-- 41_double_buffer.md R124: a fill step stores STAGE[WIDX] at word base(WT) + WIDX, leaves every other word of buffer
memory as it was, and moves on; after word W - 1 the producer publishes. -/
def Obligations.FillStepStoresOneWord : Prop :=
  ∀ (s : State) (ts : List Turn) (w : Word), s.turns = .agent .producer :: ts → s.wphase = .fill →
    s.widx < bufWords s.cfg → s.stage[s.widx]? = some w →
    ∃ t, step s = .next t ∧
      t = { s with
        turns := ts, tick := s.tick + 1
        buf := t.buf, widx := s.widx + 1
        wphase := if s.widx + 1 = bufWords s.cfg then .publish else .fill } ∧
      bufRead t (slotBase s.cfg s.wt + s.widx) = .ok w ∧
      (∀ a, a ≠ slotBase s.cfg s.wt + s.widx → bufRead t a = bufRead s a) ∧
      (Memory.wf s.buf = true → Memory.wf t.buf = true)

/-- 41_double_buffer.md R125: the publish step sets READY[WT], starts the engine on that buffer when TXSTATE is IDLE
and leaves the engine alone otherwise, and answers OK. -/
def Obligations.PublishStepSetsFlagAndStarts : Prop :=
  ∀ (s : State) (ts : List Turn), s.turns = .agent .producer :: ts → s.wphase = .publish →
    (s.txState ≠ .idle →
      step s = .next { s with
        turns := ts, tick := s.tick + 1
        ready0 := if s.wt = .a then true else s.ready0
        ready1 := if s.wt = .b then true else s.ready1
        wphase := .none
        respP := s.respP ++ [0x0000000000000000#64] }) ∧
    (s.txState = .idle → s.engBusy = false →
      step s = .next { s with
        turns := ts, tick := s.tick + 1
        ready0 := if s.wt = .a then true else s.ready0
        ready1 := if s.wt = .b then true else s.ready1
        engAddr := BitVec.ofNat 32 (if s.wt = .a then 0 else bufWords s.cfg)
        engCnt := BitVec.ofNat 32 (bufWords s.cfg)
        engBusy := true
        txState := if s.wt = .a then .drainA else .drainB
        wphase := .none
        respP := s.respP ++ [0x0000000000000000#64] })

/-- 41_double_buffer.md R127: ISRDY answers 1 when READY[tgt()] is false and 0 when it is true, after its two errors,
and changes nothing else. Its encoding. -/
def Obligations.IsrdyReportsTarget : Prop :=
  decode .p 0x0300000000000000#64 = .ok .isrdy ∧
  ∀ s : State,
    let i := if s.txState = .idle then s.active else otherSlot s.active
    (s.failed = true → exec .isrdy s = .next { s with respP := s.respP ++ [0x0300000000000000#64] }) ∧
    (s.failed = false → s.inited = false →
      exec .isrdy s = .next { s with respP := s.respP ++ [0x0400000000000000#64] }) ∧
    (s.failed = false → s.inited = true → getReady s i = false →
      exec .isrdy s = .next { s with respP := s.respP ++ [0x0000000000000001#64] }) ∧
    (s.failed = false → s.inited = true → getReady s i = true →
      exec .isrdy s = .next { s with respP := s.respP ++ [0x0000000000000000#64] })

/-- 41_double_buffer.md R127: a handler step can only turn ISRDY's 0 into a 1: after one, in a safe state, the target
buffer is free. -/
def Obligations.HandlerFreesTarget : Prop :=
  ∀ s t : State, SafeState s → nextTurn s = .agent .handler → handlerEnabled s = true → step s = .next t →
    targetFree t = true

/-- 41_double_buffer.md R126 (d): after a publish that starts transmission the next WRITE goes to the other buffer;
after a publish beside a running transmission its target is the buffer just published, so that it is held until a
completion. -/
def Obligations.NextBlockGoesToOtherBuffer : Prop :=
  ∀ s t : State, SafeState s → s.wphase = .publish → nextTurn s = .agent .producer → step s = .next t →
    getReady t s.wt = true ∧
    (s.txState = .idle → tgt t = otherSlot s.wt ∧ targetFree t = true) ∧
    (s.txState ≠ .idle → tgt t = s.wt ∧ targetFree t = false)

/-! ### Control commands -/

/-- 43_gain_smoothing.md R192: SMUTE writes MUTE[CH] and answers OK, in every state; nothing else changes. Its
encoding. -/
def Obligations.SmuteSetsOneMute : Prop :=
  ∀ (m : Bool) (s : State),
    exec (.smute .ch0 m) s = .next { s with mute0 := m, respC := s.respC ++ [0x0000000000000000#64] } ∧
    exec (.smute .ch1 m) s = .next { s with mute1 := m, respC := s.respC ++ [0x0000000000000000#64] } ∧
    exec (.smute .master m) s = .next { s with mute2 := m, respC := s.respC ++ [0x0000000000000000#64] } ∧
    ∀ ch, decode .c (0x10#8 ++ chanSel ch ++ 0#16 ++ (if m then 1#32 else 0#32)) = .ok (.smute ch m)

/-- 43_gain_smoothing.md R193: GMUTE answers the register MUTE[CH] itself, without the master, and changes nothing. Its
encoding. -/
def Obligations.GmuteReadsRegister : Prop :=
  ∀ s : State,
    let answer (m : Bool) : DWord := if m then 0x0000000000000001#64 else 0x0000000000000000#64
    exec (.gmute .ch0) s = .next { s with respC := s.respC ++ [answer s.mute0] } ∧
    exec (.gmute .ch1) s = .next { s with respC := s.respC ++ [answer s.mute1] } ∧
    exec (.gmute .master) s = .next { s with respC := s.respC ++ [answer s.mute2] } ∧
    ∀ ch, decode .c (0x11#8 ++ chanSel ch ++ 0#48) = .ok (.gmute ch)

/-- 43_gain_smoothing.md R194: SVOL stores the volume clamped to VOL_MIN and VOL_MAX, never refused and not snapped to
the step, and answers OK; nothing else changes. Its encoding. -/
def Obligations.SvolClampsAndStores : Prop :=
  ∀ (v : Int) (s : State), s.cfg.valid = true →
    let x := max s.cfg.volMin (min s.cfg.volMax v)
    (BitVec.ofInt 16 x).toInt = x ∧
    exec (.svol .ch0 v) s = .next { s with
      vol0 := BitVec.ofInt 16 x, respC := s.respC ++ [0x0000000000000000#64] } ∧
    exec (.svol .ch1 v) s = .next { s with
      vol1 := BitVec.ofInt 16 x, respC := s.respC ++ [0x0000000000000000#64] } ∧
    exec (.svol .master v) s = .next { s with
      vol2 := BitVec.ofInt 16 x, respC := s.respC ++ [0x0000000000000000#64] } ∧
    ∀ (ch : Chan) (u : BitVec 16), decode .c (0x12#8 ++ chanSel ch ++ 0#32 ++ u) = .ok (.svol ch u.toInt)

/-- 43_gain_smoothing.md R195: GVOL answers the stored 16-bit pattern in VALUE[15:0] with VALUE[31:16] = 0. Its
encoding. -/
def Obligations.GvolReadsStoredVolume : Prop :=
  ∀ s : State,
    exec (.gvol .ch0) s = .next { s with respC := s.respC ++ [0#48 ++ s.vol0] } ∧
    exec (.gvol .ch1) s = .next { s with respC := s.respC ++ [0#48 ++ s.vol1] } ∧
    exec (.gvol .master) s = .next { s with respC := s.respC ++ [0#48 ++ s.vol2] } ∧
    ∀ ch, decode .c (0x13#8 ++ chanSel ch ++ 0#48) = .ok (.gvol ch)

/-- 43_gain_smoothing.md R196: GVRNG answers VOL_MIN, VOL_MAX or VOL_RES as a 16-bit pattern. Its encoding. -/
def Obligations.GvrngReadsRange : Prop :=
  ∀ s : State,
    exec (.gvrng .min) s = .next { s with respC := s.respC ++ [0#48 ++ BitVec.ofInt 16 s.cfg.volMin] } ∧
    exec (.gvrng .max) s = .next { s with respC := s.respC ++ [0#48 ++ BitVec.ofInt 16 s.cfg.volMax] } ∧
    exec (.gvrng .res) s = .next { s with respC := s.respC ++ [0#48 ++ BitVec.ofInt 16 s.cfg.volRes] } ∧
    ∀ item, decode .c (0x14#8 ++ itemSel item ++ 0#48) = .ok (.gvrng item)

/-- 45_clock_configurator.md R254: GRATE answers RATE, in every state, and changes nothing else. Its encoding. -/
def Obligations.GrateReadsRate : Prop :=
  decode .c 0x1500000000000000#64 = .ok .grate ∧
  ∀ s : State, exec .grate s = .next { s with respC := s.respC ++ [0#32 ++ s.rate] }

/-! ### The engine and the handler -/

/-- 42_transmitter_binding.md R157: an enabled word step pushes the word at ENG_ADDR, moves the address and the count,
and at the last word ends the transfer and, if enabled, makes the completion pending. Nothing else changes. -/
def Obligations.EngineMovesOneWord : Prop :=
  ∀ (s : State) (ts : List Turn), s.turns = .agent .engine :: ts →
    (∀ w, s.engBusy = true → s.smEn = true → bufRead s s.engAddr.toNat = .ok w → 1 < s.engCnt.toNat →
      step s = .next { s with
        turns := ts, tick := s.tick + 1, txOut := s.txOut ++ [w]
        engAddr := s.engAddr + 1#32, engCnt := s.engCnt - 1#32 }) ∧
    (∀ w, s.engBusy = true → s.smEn = true → bufRead s s.engAddr.toNat = .ok w → s.engCnt.toNat = 1 →
      step s = .next { s with
        turns := ts, tick := s.tick + 1, txOut := s.txOut ++ [w]
        engAddr := s.engAddr + 1#32, engCnt := 0#32, engBusy := false
        irqPend := if s.irqEn then true else s.irqPend })

/-- The model's choice (log 4): an agent's turn with no step of it enabled changes nothing but the schedule. -/
def Obligations.DisabledTurnChangesNothing : Prop :=
  ∀ (s : State) (a : Agent) (ts : List Turn), s.turns = .agent a :: ts →
    ((a = .producer ∧ s.wphase = .none ∧ s.portP = []) ∨ (a = .control ∧ s.portC = []) ∨
      (a = .engine ∧ (s.engBusy = false ∨ s.smEn = false)) ∨ (a = .handler ∧ (s.irqPend = false ∨ s.irqEn = false))) →
    step s = .next { s with turns := ts, tick := s.tick + 1 }

/-- 60_exceptions.md R281, R286: taking the completion interrupt. The drained buffer's flag is cleared (a silence
transfer has none); if the other buffer is ready it becomes active and is armed, and if not the silence buffer is armed
and ACTIVE stays. Nothing is saved and nothing else changes. With TXSTATE = IDLE only IRQ_PEND is cleared. -/
def Obligations.HandlerStepTable : Prop :=
  ∀ (s : State) (ts : List Turn), s.turns = .agent .handler :: ts → s.irqPend = true → s.irqEn = true →
    s.engBusy = false →
    let keep0 := if s.active = .a ∧ s.txState ≠ .drainSilence then false else s.ready0
    let keep1 := if s.active = .b ∧ s.txState ≠ .drainSilence then false else s.ready1
    (s.txState = .idle → step s = .next { s with turns := ts, tick := s.tick + 1, irqPend := false }) ∧
    (s.txState ≠ .idle → s.active = .a → s.ready1 = true →
      step s = .next { s with
        turns := ts, tick := s.tick + 1, irqPend := false, ready0 := keep0, active := .b, txState := .drainB
        engAddr := BitVec.ofNat 32 (bufWords s.cfg), engCnt := BitVec.ofNat 32 (bufWords s.cfg), engBusy := true }) ∧
    (s.txState ≠ .idle → s.active = .b → s.ready0 = true →
      step s = .next { s with
        turns := ts, tick := s.tick + 1, irqPend := false, ready1 := keep1, active := .a, txState := .drainA
        engAddr := 0#32, engCnt := BitVec.ofNat 32 (bufWords s.cfg), engBusy := true }) ∧
    (s.txState ≠ .idle → (s.active = .a ∧ s.ready1 = false ∨ s.active = .b ∧ s.ready0 = false) →
      step s = .next { s with
        turns := ts, tick := s.tick + 1, irqPend := false, ready0 := keep0, ready1 := keep1, txState := .drainSilence
        engAddr := BitVec.ofNat 32 (2 * bufWords s.cfg), engCnt := BitVec.ofNat 32 (bufWords s.cfg), engBusy := true })

/-- 60_exceptions.md R285 (c), 20_memory.md R71: the handler reads and writes READY, ACTIVE, TXSTATE, IRQ_PEND and the
engine registers, and touches nothing else. -/
def Obligations.HandlerTouchesOnlyItsState : Prop :=
  ∀ s t : State, nextTurn s = .agent .handler → step s = .next t →
    t = { startTurn s with
      ready0 := t.ready0, ready1 := t.ready1, active := t.active, txState := t.txState, irqPend := t.irqPend
      engAddr := t.engAddr, engCnt := t.engCnt, engBusy := t.engBusy } ∧
    (s.ready0 = false → t.ready0 = false) ∧ (s.ready1 = false → t.ready1 = false)

/-- 42_transmitter_binding.md R155, R157, R159: from a safe state with a transfer in flight, as many engine turns as
words remain push exactly those words in ascending address order, end the transfer and make its completion pending;
nothing else changes. -/
def Obligations.TransferMovesRemainingWords : Prop :=
  ∀ (s : State) (ws : List Word) (rest : List Turn),
    SafeState s → s.engBusy = true → ws.length = s.engCnt.toNat →
    (∀ (j : Nat) (w : Word), ws[j]? = some w → bufRead s (s.engAddr.toNat + j) = .ok w) →
    s.turns = List.replicate ws.length (.agent .engine) ++ rest →
    stepsTo ws.length s = some { s with
      txOut := s.txOut ++ ws
      engAddr := BitVec.ofNat 32 (s.engAddr.toNat + ws.length), engCnt := 0#32, engBusy := false, irqPend := true
      turns := rest, tick := s.tick + ws.length }

/-- 41_double_buffer.md R120, R123 to R125: an accepted WRITE whose target is free, given W + 2 turns of the producer,
fills the target with the words of STAGE, leaves every other buffer word alone, publishes the buffer and answers OK;
the engine is started on it if nothing was running and is not touched if something was. -/
def Obligations.WriteRunsToPublish : Prop :=
  ∀ (s : State) (rest : List Turn),
    SafeState s → s.wphase = .wait → targetFree s = true →
    s.turns = List.replicate (bufWords s.cfg + 2) (.agent .producer) ++ rest →
    ∃ t, stepsTo (bufWords s.cfg + 2) s = some t ∧
      t.wphase = .none ∧ t.turns = rest ∧
      t.respP = s.respP ++ [0x0000000000000000#64] ∧
      getReady t (tgt s) = true ∧
      getReady t (otherSlot (tgt s)) = getReady s (otherSlot (tgt s)) ∧
      (∀ j, j < bufWords s.cfg → ∃ w, s.stage[j]? = some w ∧ bufRead t (slotBase s.cfg (tgt s) + j) = .ok w) ∧
      (∀ a, (∀ j, j < bufWords s.cfg → a ≠ slotBase s.cfg (tgt s) + j) → bufRead t a = bufRead s a) ∧
      (s.txState = .idle → t.txState = drainOf (tgt s) ∧ t.engBusy = true ∧
        t.engAddr = BitVec.ofNat 32 (slotBase s.cfg (tgt s)) ∧ t.engCnt = BitVec.ofNat 32 (bufWords s.cfg)) ∧
      (s.txState ≠ .idle → t.txState = s.txState ∧ t.engBusy = s.engBusy ∧
        t.engAddr = s.engAddr ∧ t.engCnt = s.engCnt ∧ t.active = s.active)

/-- 41_double_buffer.md R126 (a), 42_transmitter_binding.md R159: the first block after INIT is never held, and W
engine turns after its publish step TXOUT has gained exactly the words of STAGE. -/
def Obligations.FirstBlockIsTransmitted : Prop :=
  ∀ (s : State) (rest : List Turn),
    SafeState s → s.wphase = .wait → s.txState = .idle → s.inited = true →
    s.turns = List.replicate (bufWords s.cfg + 2) (.agent .producer) ++
      (List.replicate (bufWords s.cfg) (.agent .engine) ++ rest) →
    ∃ t, stepsTo (bufWords s.cfg + 2 + bufWords s.cfg) s = some t ∧
      t.txOut = s.txOut ++ s.stage ∧ t.irqPend = true ∧ t.engBusy = false ∧ t.turns = rest

/-- 60_exceptions.md R281, 10_state.md R28: on an underrun the handler arms the silence buffer, and the W engine turns
that follow push W zero words. -/
def Obligations.UnderrunTransmitsSilence : Prop :=
  ∀ (s : State) (rest : List Turn),
    SafeState s → s.irqPend = true → s.irqEn = true → getReady s (otherSlot s.active) = false →
    s.turns = .agent .handler :: (List.replicate (bufWords s.cfg) (.agent .engine) ++ rest) →
    ∃ t, stepsTo (1 + bufWords s.cfg) s = some t ∧
      t.txOut = s.txOut ++ List.replicate (bufWords s.cfg) 0#32 ∧
      t.txState = .drainSilence ∧ t.active = s.active ∧ t.ready0 = false ∧ t.ready1 = false ∧ t.irqPend = true

/-! ### Reset, safety and whole-machine rules -/

/-- 10_state.md R47, 70_reset_and_hazards.md R310: RESET puts every element at its value of the reset table, and
`State.reset` has those values. That the configuration and the inputs stay, and that an unspecified word has no value,
is the model's choice (logs 1, 9, 13). -/
def Obligations.ResetLeavesTable : Prop :=
  ResetTable State.reset ∧
  ∀ (s : State) (ts : List Turn), s.turns = .reset :: ts →
    ∃ t, step s = .next t ∧ ResetTable t ∧ t.cfg = s.cfg ∧ t.src = s.src ∧
      t.engineAvailable = s.engineAvailable ∧ t.portP = s.portP ∧ t.portC = s.portC ∧ t.turns = ts

/-- 10_state.md R33, R46: the state after reset is safe in every configuration that meets 00_scope.md R7. -/
def Obligations.ResetStateIsSafe : Prop :=
  (∀ c : Config, c.valid = true → SafeState (State.powerOn c)) ∧ SafeState State.reset

/-- 10_state.md R33, R46: every step keeps the invariants, whichever agent moves. -/
def Obligations.StepKeepsInvariants : Prop :=
  ∀ s t : State, SafeState s → step s = .next t → SafeState t

/-- 10_state.md R46, 42_transmitter_binding.md R155, 93_implementation_defined.md U10, U12: in a safe state no step
faults and none is refused. -/
def Obligations.SafeStateNeverStops : Prop :=
  ∀ s : State, SafeState s → Steps s

/-- 43_gain_smoothing.md R186: with VOL_MAX = 0 all four gains stay between 0 and 1. -/
def Obligations.GainsStayInUnit : Prop :=
  ∀ s t : State, s.cfg.volMax = 0 → SafeState s → GainsInUnit s → step s = .next t → GainsInUnit t

/-- 70_reset_and_hazards.md R310, 60_exceptions.md R275: RESET is the only event that clears FAILED or
ENGINE_CLAIMED. -/
def Obligations.OnlyResetClearsFailed : Prop :=
  ∀ s t : State, nextTurn s ≠ .reset → step s = .next t →
    (s.failed = true → t.failed = true) ∧ (s.engineClaimed = true → t.engineClaimed = true)

/-- 42_transmitter_binding.md R157, R158: only the engine's word step appends to TXOUT, one word, read from buffer
memory at ENG_ADDR; only RESET empties it. -/
def Obligations.OnlyEngineWritesTxOut : Prop :=
  ∀ s t : State, step s = .next t →
    t.txOut = s.txOut ∨
    (nextTurn s = .agent .engine ∧ ∃ w, bufRead s s.engAddr.toNat = .ok w ∧ t.txOut = s.txOut ++ [w]) ∨
    (nextTurn s = .reset ∧ t.txOut = [])

/-- 60_exceptions.md R290, R276: a command of port C answers in every state and writes at most MUTE, VOL and the
responses of port C. -/
def Obligations.ControlCommandsFrame : Prop :=
  ∀ (i : Instr) (s : State), i.port = .c →
    ∃ t, exec i s = .next t ∧
      t = { s with
        mute0 := t.mute0, mute1 := t.mute1, mute2 := t.mute2
        vol0 := t.vol0, vol1 := t.vol1, vol2 := t.vol2, respC := t.respC } ∧
      ∃ w : DWord, t.respC = s.respC ++ [w] ∧ w.extractLsb' 56 8 = 0#8

/-- 20_memory.md R60, R71: no command's own step writes buffer memory or SRC. -/
def Obligations.CommandsLeaveMemory : Prop :=
  ∀ (i : Instr) (s t : State), exec i s = .next t →
    (∀ a, bufRead t a = bufRead s a) ∧ (∀ a, srcByte t a = srcByte s a)

/-- 30_encoding.md R90, R91: what the accepting step of a command answers: exactly one response on the command's own
port and none on the other, or, for a WRITE that is not refused, none yet, and the producer waits. The one answer of
such a WRITE is its publish step's (`BusyPortAcceptsNothing`, `PublishStepSetsFlagAndStarts`, `WriteRunsToPublish`). -/
def Obligations.OneResponsePerCommand : Prop :=
  ∀ (i : Instr) (s t : State), exec i s = .next t →
    (i.port = .c → t.respP = s.respP ∧ ∃ w, t.respC = s.respC ++ [w]) ∧
    (i.port = .p → t.respC = s.respC ∧
      ((∃ w, t.respP = s.respP ++ [w] ∧ t.wphase = s.wphase) ∨
       ((∃ f ptr cnt, i = .write f ptr cnt) ∧ t.respP = s.respP ∧ t.wphase = .wait)))

/-- 70_reset_and_hazards.md R332: no step changes the configuration, and only the collaborator writes SRC. -/
def Obligations.ConfigurationNeverChanges : Prop :=
  ∀ s t : State, step s = .next t →
    t.cfg = s.cfg ∧ ((∀ a v, nextTurn s ≠ .store a v) → t.src = s.src)

/-- 60_exceptions.md R286: "No other event changes TXSTATE": a change is made by RESET, by an INIT answered OK (to IDLE),
by the publish step that finds IDLE, or by the handler. -/
def Obligations.TxStateChangesOnlyByTable : Prop :=
  ∀ s t : State, step s = .next t → t.txState ≠ s.txState →
    (nextTurn s = .reset ∧ t.txState = .idle) ∨
    (nextTurn s = .agent .producer ∧ s.wphase = .none ∧ t.txState = .idle ∧
      t.respP = s.respP ++ [0x0000000000000000#64] ∧
      ∃ cw rest r, s.portP = cw :: rest ∧ decode .p cw = .ok (.init r)) ∨
    (nextTurn s = .agent .producer ∧ s.wphase = .publish ∧ s.txState = .idle ∧ t.txState = drainOf s.wt) ∨
    (nextTurn s = .agent .handler ∧ s.irqPend = true ∧ s.irqEn = true ∧ s.txState ≠ .idle ∧ t.txState ≠ .idle)

/-- 10_state.md R29, R46 (a), (e), (f), 70_reset_and_hazards.md R323: the buffer a WRITE is filling is never the one
being drained, and the engine never reads it. -/
def Obligations.FillingIsNeverDraining : Prop :=
  ∀ s : State, SafeState s → s.wphase = .fill →
    owner s s.wt = .filling ∧
    (s.engBusy = true → ∀ j, j < bufWords s.cfg → s.engAddr.toNat ≠ slotBase s.cfg s.wt + j)

/-- 20_memory.md R71: the engine and the handler do not see MUTE and VOL: with other values there they do the same. -/
def Obligations.ControlStateDoesNotReachTransmit : Prop :=
  ∀ (s t : State) (m0 m1 m2 : Bool) (v0 v1 v2 : BitVec 16),
    (nextTurn s = .agent .engine ∨ nextTurn s = .agent .handler) → step s = .next t →
    step { s with mute0 := m0, mute1 := m1, mute2 := m2, vol0 := v0, vol1 := v1, vol2 := v2 } =
      .next { t with mute0 := m0, mute1 := m1, mute2 := m2, vol0 := v0, vol1 := v1, vol2 := v2 }

/-- 20_memory.md R60, R61, and the model's own input (log 6): a byte the collaborator stores is the byte SRC then
holds there at every later instant; every other listed byte stays. -/
def Obligations.CollaboratorStoresByte : Prop :=
  ∀ (s : State) (a : BitVec 32) (v : Byte) (ts : List Turn), s.turns = .store a v :: ts →
    ∃ t, step s = .next t ∧ t = { s with turns := ts, tick := s.tick + 1, src := t.src } ∧
      (∀ n, srcByte { t with tick := n } a.toNat = v) ∧
      (∀ b n, b ≠ a.toNat → srcByte { t with tick := n } b = srcByte { s with tick := n } b) ∧
      (Memory.wf s.src = true → Memory.wf t.src = true)

/-! ### The tolerance of the conversion -/

/-- 43_gain_smoothing.md R184, P4: in a valid configuration DB2LIN differs from 10^(a/5120) by at most DB2LIN_EPS times
it. -/
def Obligations.DbToLinearIsWithinTolerance : Prop :=
  ∀ (c : Config) (a : Int), c.valid = true →
    |(db2lin c a : ℝ) - (10 : ℝ) ^ ((a : ℝ) / 5120)| ≤ (c.db2linEps : ℝ) * (10 : ℝ) ^ ((a : ℝ) / 5120)
end

