-- ==== Sys2Proof/Laws/Format.lean ====
section
/-! SUPPORT. The shape of STAGE after PROCESS: how many words, and which words they are. -/

namespace Sys2Proof.Machine

/-- A frame has WPF words. -/
@[simp] theorem frameWords_length (s : State) (f : Fmt) (ptr n k : Nat) :
    (frameWords s f ptr n k).length = wordsPerFrame s.cfg := by
  unfold frameWords wordsPerFrame
  cases s.cfg.nativeFmt <;> rfl

/-- Blocks of one length, one after another: how long, and which element stands where. -/
theorem flatMap_range_blocks {α : Type} (n m : Nat) (g : Nat → List α) (hg : ∀ k, (g k).length = m) :
    ((List.range n).flatMap g).length = n * m ∧
    ∀ k j, k < n → j < m → ((List.range n).flatMap g)[k * m + j]? = (g k)[j]? := by
  induction n with
  | zero => simp
  | succ n ih =>
    obtain ⟨hl, hget⟩ := ih
    rw [List.range_succ, List.flatMap_append]
    simp only [List.flatMap_cons, List.flatMap_nil, List.append_nil]
    refine ⟨by rw [List.length_append, hl, hg, Nat.succ_mul], fun k j hk hj => ?_⟩
    by_cases hkn : k = n
    · rw [hkn, List.getElem?_append_right (by rw [hl]; omega), hl]
      congr 1
      omega
    · have hlt : k * m + j < n * m := by
        have : (k + 1) * m ≤ n * m := Nat.mul_le_mul_right m (by omega)
        rw [Nat.succ_mul] at this
        omega
      rw [List.getElem?_append_left (by rw [hl]; exact hlt), hget k j (by omega) hj]

/-- STAGE has W words after PROCESS of a block that fits. -/
theorem stageWords_length (s : State) (f : Fmt) (ptr n : Nat) (h : n ≤ s.cfg.bufFrames) :
    (stageWords s f ptr n).length = bufWords s.cfg := by
  have hm := Nat.mul_le_mul_right (wordsPerFrame s.cfg) h
  unfold stageWords bufWords
  rw [List.length_append, List.length_replicate,
    (flatMap_range_blocks n _ _ (frameWords_length s f ptr n)).1]
  omega

/-- Word `j` of frame `k` of the block. -/
theorem stageWords_frame (s : State) (f : Fmt) (ptr : Nat) {n k j : Nat} (hk : k < n) (hj : j < wordsPerFrame s.cfg) :
    (stageWords s f ptr n)[k * wordsPerFrame s.cfg + j]? = (frameWords s f ptr n k)[j]? := by
  obtain ⟨hl, hget⟩ := flatMap_range_blocks n _ _ (frameWords_length s f ptr n)
  have hle : (k + 1) * wordsPerFrame s.cfg ≤ n * wordsPerFrame s.cfg := Nat.mul_le_mul_right _ hk
  rw [Nat.succ_mul] at hle
  unfold stageWords
  rw [List.getElem?_append_left (by rw [hl]; omega), hget k j hk hj]

/-- The words after the last frame are zero. -/
theorem stageWords_padding (s : State) (f : Fmt) (ptr : Nat) {n j : Nat} (h : n * wordsPerFrame s.cfg ≤ j)
    (hj : j < bufWords s.cfg) : (stageWords s f ptr n)[j]? = some 0#32 := by
  have hl := (flatMap_range_blocks n _ _ (frameWords_length s f ptr n)).1
  unfold stageWords
  rw [List.getElem?_append_right (by rw [hl]; exact h), List.getElem?_replicate, hl, if_pos (by omega)]

/-- With no frame STAGE is W zero words. -/
@[simp] theorem stageWords_zero (s : State) (f : Fmt) (ptr : Nat) :
    stageWords s f ptr 0 = List.replicate (bufWords s.cfg) 0#32 := by
  simp [stageWords]

end Sys2Proof.Machine
end

