-- ==== Sys2Proof/Laws/Gain.lean ====
section
/-! SUPPORT. The pieces DB2LIN is built from (43_gain_smoothing.md R184): the bracket of the root, and what one step of
DB2LIN up or down can do; and the ends of the ramp. -/

namespace Sys2Proof.Machine

theorem dbDecade_ne_zero : dbDecade ≠ 0 := by decide

theorem proposedGain_pos (c : Config) (a : Int) : 0 < proposedGain c a := by
  unfold proposedGain
  positivity

/-- The first lower end: (1 + 1/5120)^5120 is below 10. -/
theorem rootBracket_zero_low : (1 + 1 / (dbDecade : Rat)) ^ dbDecade ≤ 10 := by
  have h : 5121 ^ dbDecade ≤ 10 * 5120 ^ dbDecade := by decide +kernel
  have h2 : ((5121 : Rat)) ^ dbDecade ≤ 10 * (5120 : Rat) ^ dbDecade := by exact_mod_cast h
  rw [show (1 + 1 / (dbDecade : Rat)) = 5121 / 5120 by norm_num [dbDecade], div_pow, div_le_iff₀ (by positivity)]
  exact h2

/-- The first upper end: 2^5120 is above 10. -/
theorem rootBracket_zero_high : (10 : Rat) ≤ 2 ^ dbDecade :=
  (by norm_num : (10 : Rat) ≤ 2 ^ 4).trans (pow_le_pow_right₀ (by norm_num) (by decide))

/-- The two rationals are above 1, lie around 10^(1/5120), and are 2^(-k) apart at most. -/
theorem rootBracket_spec (k : Nat) :
    1 < (rootBracket k).1 ∧ (rootBracket k).1 ≤ (rootBracket k).2 ∧ (rootBracket k).1 ^ dbDecade ≤ 10 ∧
    10 ≤ (rootBracket k).2 ^ dbDecade ∧ ((rootBracket k).2 - (rootBracket k).1) * 2 ^ k ≤ 1 := by
  induction k with
  | zero =>
    refine ⟨?_, ?_, rootBracket_zero_low, rootBracket_zero_high, ?_⟩ <;> norm_num [rootBracket, dbDecade]
  | succ k ih =>
    obtain ⟨h1, h2, h3, h4, h5⟩ := ih
    have hp : (0 : Rat) < 2 ^ k := by positivity
    simp only [rootBracket]
    split
    · rename_i hm
      exact ⟨by linarith, by linarith, hm, h4, by rw [pow_succ]; linarith⟩
    · rename_i hm
      exact ⟨h1, by linarith, h3, (not_le.mp hm).le, by rw [pow_succ]; linarith⟩

/-- For a positive tolerance the two rationals are within it of each other. -/
theorem rootNear_spec {eps : Rat} (he : 0 < eps) :
    1 < (rootNear eps).1 ∧ (rootNear eps).1 ≤ (rootNear eps).2 ∧ (rootNear eps).1 ^ dbDecade ≤ 10 ∧
    10 ≤ (rootNear eps).2 ^ dbDecade ∧ (rootNear eps).2 - (rootNear eps).1 ≤ eps := by
  obtain ⟨h1, h2, h3, h4, h5⟩ := rootBracket_spec (1 / eps).ceil.toNat
  refine ⟨h1, h2, h3, h4, ?_⟩
  have hc : 1 / eps ≤ ((1 / eps).ceil.toNat : Rat) := by
    have hle : 1 / eps ≤ ((1 / eps).ceil : Rat) := Rat.le_ceil
    have hz : ((1 / eps).ceil : Rat) ≤ (((1 / eps).ceil.toNat : Int) : Rat) := by
      exact_mod_cast Int.self_le_toNat _
    exact hle.trans (by exact_mod_cast hz)
  have hlt : ((1 / eps).ceil.toNat : Rat) < 2 ^ (1 / eps).ceil.toNat := by exact_mod_cast Nat.lt_two_pow_self
  have hone : 1 ≤ eps * 2 ^ (1 / eps).ceil.toNat := by
    have := mul_le_mul_of_nonneg_left (hc.trans hlt.le) he.le
    rwa [mul_one_div_cancel he.ne'] at this
  unfold rootNear
  nlinarith [(by positivity : (0 : Rat) < 2 ^ (1 / eps).ceil.toNat)]

/-- The step up grows, by the value proposed or by a factor above 1. -/
theorem gainAbove_gt (c : Config) (a : Int) {g : Rat} (hg : 0 < g) : g < gainAbove c a g := by
  obtain ⟨h1, h2, -⟩ := rootBracket_spec (1 / c.db2linEps).ceil.toNat
  unfold gainAbove rootNear
  split
  · rename_i h
    exact h.1
  · split <;> nlinarith

/-- The step down falls and stays positive. -/
theorem gainBelow_lt (c : Config) (a : Int) {g : Rat} (hg : 0 < g) : 0 < gainBelow c a g ∧ gainBelow c a g < g := by
  obtain ⟨h1, h2, -⟩ := rootBracket_spec (1 / c.db2linEps).ceil.toNat
  unfold gainBelow rootNear
  split
  · rename_i h
    exact ⟨proposedGain_pos c _, h.1⟩
  · split
    · exact ⟨div_pos hg (by linarith), div_lt_self hg (by linarith)⟩
    · exact ⟨div_pos hg (by linarith), div_lt_self hg h1⟩

/-- The ends of the bracket, as the two factors of the tolerance that a step can use. -/
theorem rootNear_factors {eps : Rat} (he : 0 < eps) :
    10 ≤ (1 + eps) ^ dbDecade * (rootNear eps).1 ^ dbDecade ∧
    (rootNear eps).2 ^ dbDecade ≤ (1 + eps) ^ dbDecade * 10 ∧
    (eps < 1 → (1 - eps) ^ dbDecade * 10 ≤ (rootNear eps).1 ^ dbDecade) ∧
    (eps < 1 → (1 - eps) ^ dbDecade * (rootNear eps).2 ^ dbDecade ≤ 10) := by
  obtain ⟨h1, h2, h3, h4, h5⟩ := rootNear_spec he
  generalize (rootNear eps).1 = lo at *
  generalize (rootNear eps).2 = hi at *
  have hup : hi ≤ (1 + eps) * lo := by nlinarith
  have hpow : hi ^ dbDecade ≤ (1 + eps) ^ dbDecade * lo ^ dbDecade := by
    rw [← mul_pow]
    exact pow_le_pow_left₀ (by linarith) hup _
  have hdown : eps < 1 → (1 - eps) ^ dbDecade * hi ^ dbDecade ≤ lo ^ dbDecade := fun h => by
    rw [← mul_pow]
    exact pow_le_pow_left₀ (mul_nonneg (by linarith) (by linarith)) (by nlinarith) _
  have hE : (0 : Rat) < (1 + eps) ^ dbDecade := by positivity
  refine ⟨h4.trans hpow, hpow.trans (mul_le_mul_of_nonneg_left h3 hE.le), fun h => ?_, fun h => (hdown h).trans h3⟩
  have : (0 : Rat) ≤ (1 - eps) ^ dbDecade := pow_nonneg (by linarith) _
  exact (mul_le_mul_of_nonneg_left h4 this).trans (hdown h)

/-- The step up keeps the tolerance. -/
theorem gainAbove_within (c : Config) (a : Int) {g : Rat} (he : 0 < c.db2linEps) (hg : 0 < g)
    (h : withinTolerance c.db2linEps g a) : withinTolerance c.db2linEps (gainAbove c a g) (a + 1) := by
  obtain ⟨-, -, h3, h4, -⟩ := rootNear_spec he
  obtain ⟨f1, f2, f3, f4⟩ := rootNear_factors he
  obtain ⟨b1, b2, -⟩ := rootNear_spec he
  have hx : (0 : Rat) < 10 ^ a := by positivity
  have hgp : 0 < g ^ dbDecade := by positivity
  unfold gainAbove
  split
  · rename_i hp
    exact hp.2
  · unfold withinTolerance at h ⊢
    rw [zpow_add₀ (by norm_num), zpow_one]
    generalize (10 : Rat) ^ a = x at *
    have hlo : 0 < (rootNear c.db2linEps).1 ^ dbDecade := pow_pos (by linarith) _
    have hhi : 0 < (rootNear c.db2linEps).2 ^ dbDecade := pow_pos (by linarith) _
    split
    · rename_i hs
      rw [mul_pow]
      refine ⟨?_, fun hlt => ?_⟩
      · calc g ^ dbDecade * (rootNear c.db2linEps).1 ^ dbDecade
            ≤ ((1 + c.db2linEps) ^ dbDecade * x) * 10 := mul_le_mul h.1 h3 hlo.le (hgp.le.trans h.1)
          _ = (1 + c.db2linEps) ^ dbDecade * (x * 10) := by ring
      · calc (1 - c.db2linEps) ^ dbDecade * (x * 10)
            = x * ((1 - c.db2linEps) ^ dbDecade * 10) := by ring
          _ ≤ g ^ dbDecade * (rootNear c.db2linEps).1 ^ dbDecade :=
            mul_le_mul hs (f3 hlt) (mul_nonneg (pow_nonneg (by linarith) _) (by norm_num)) hgp.le
    · rename_i hs
      rw [mul_pow]
      refine ⟨?_, fun hlt => ?_⟩
      · calc g ^ dbDecade * (rootNear c.db2linEps).2 ^ dbDecade
            ≤ x * ((1 + c.db2linEps) ^ dbDecade * 10) := mul_le_mul (not_le.mp hs).le f2 hhi.le hx.le
          _ = (1 + c.db2linEps) ^ dbDecade * (x * 10) := by ring
      · calc (1 - c.db2linEps) ^ dbDecade * (x * 10)
            = ((1 - c.db2linEps) ^ dbDecade * x) * 10 := by ring
          _ ≤ g ^ dbDecade * (rootNear c.db2linEps).2 ^ dbDecade := mul_le_mul (h.2 hlt) h4 (by norm_num) hgp.le

/-- The step down keeps the tolerance. -/
theorem gainBelow_within (c : Config) (a : Int) {g : Rat} (he : 0 < c.db2linEps) (hg : 0 < g)
    (h : withinTolerance c.db2linEps g a) : withinTolerance c.db2linEps (gainBelow c a g) (a - 1) := by
  obtain ⟨b1, b2, h3, h4, -⟩ := rootNear_spec he
  obtain ⟨f1, f2, f3, f4⟩ := rootNear_factors he
  have hx : (0 : Rat) < 10 ^ a := by positivity
  have hgp : 0 < g ^ dbDecade := by positivity
  unfold gainBelow
  split
  · rename_i hp
    exact hp.2
  · unfold withinTolerance at h ⊢
    rw [zpow_sub₀ (by norm_num), zpow_one]
    generalize (10 : Rat) ^ a = x at *
    have hlo : 0 < (rootNear c.db2linEps).1 ^ dbDecade := pow_pos (by linarith) _
    have hhi : 0 < (rootNear c.db2linEps).2 ^ dbDecade := pow_pos (by linarith) _
    have hE : (0 : Rat) < (1 + c.db2linEps) ^ dbDecade := by positivity
    split
    · rename_i hs
      rw [div_pow, div_le_iff₀ hhi, le_div_iff₀ hhi]
      refine ⟨?_, fun hlt => ?_⟩
      · have := mul_le_mul_of_nonneg_left h4 (mul_pos hE hx).le
        linarith [h.1]
      · have := mul_le_mul_of_nonneg_left (f4 hlt) hx.le
        linarith
    · rename_i hs
      rw [div_pow, div_le_iff₀ hlo, le_div_iff₀ hlo]
      refine ⟨?_, fun hlt => ?_⟩
      · have := mul_le_mul_of_nonneg_left f1 hx.le
        linarith [not_le.mp hs]
      · have h0 : 0 ≤ (1 - c.db2linEps) ^ dbDecade := pow_nonneg (by linarith) _
        have := mul_le_mul_of_nonneg_left h3 (mul_nonneg h0 hx.le)
        linarith [h.2 hlt]

/-- The value 1 at 0 is exact. -/
theorem withinTolerance_one {eps : Rat} (he : 0 < eps) : withinTolerance eps 1 0 := by
  unfold withinTolerance
  rw [one_pow, zpow_zero, mul_one, mul_one]
  exact ⟨one_le_pow₀ (by linarith), fun h => pow_le_one₀ (by linarith) (by linarith)⟩

@[simp] theorem db2linUp_succ (c : Config) (n : Nat) : db2linUp c (n + 1) = gainAbove c n (db2linUp c n) := rfl

@[simp] theorem db2linDown_succ (c : Config) (n : Nat) : db2linDown c (n + 1) = gainBelow c (-n) (db2linDown c n) := rfl

@[simp] theorem db2lin_zero (c : Config) : db2lin c 0 = 1 := rfl

@[simp] theorem rampGain_zero (g0 g1 : Rat) (n : Nat) : rampGain g0 g1 n 0 = g0 := by simp [rampGain]

@[simp] theorem rampGain_self (g : Rat) (n k : Nat) : rampGain g g n k = g := by simp [rampGain]

end Sys2Proof.Machine
end

