-- ==== Sys2Proof/Laws/Memory.lean ====
section
/-! SUPPORT. The laws of memory cells: read after write, the frame of a write, and that a write keeps the canonical
form. -/

namespace Sys2Proof.Machine

theorem readCell_writeCell_same {w : Nat} (m : Memory w) (a : Nat) (v : BitVec w) :
    readCell (writeCell m a v) a = some v := by
  induction m with
  | nil => simp [writeCell, readCell]
  | cons x rest ih =>
    obtain ⟨k, u⟩ := x
    unfold writeCell
    split
    · simp [readCell]
    · split
      · simp [readCell]
      · rename_i h1 h2
        simp [readCell, ih, Ne.symm h2]

theorem readCell_writeCell_other {w : Nat} (m : Memory w) {a b : Nat} (v : BitVec w) (h : b ≠ a) :
    readCell (writeCell m a v) b = readCell m b := by
  induction m with
  | nil => simp [writeCell, readCell, Ne.symm h]
  | cons x rest ih =>
    obtain ⟨k, u⟩ := x
    unfold writeCell
    split
    · simp [readCell, Ne.symm h]
    · split
      · rename_i h1 h2
        subst h2
        simp [readCell, Ne.symm h]
      · simp [readCell, ih]

/-- Read after write, both cases at once. -/
theorem readCell_writeCell {w : Nat} (m : Memory w) (a b : Nat) (v : BitVec w) :
    readCell (writeCell m a v) b = if b = a then some v else readCell m b := by
  split
  · rename_i h
    rw [h]
    exact readCell_writeCell_same m a v
  · rename_i h
    exact readCell_writeCell_other m v h

theorem Memory.wf_tail {w : Nat} {x : Nat × BitVec w} {m : Memory w} (h : Memory.wf (x :: m) = true) :
    Memory.wf m = true := by
  cases m with
  | nil => rfl
  | cons y rest =>
    simp only [Memory.wf, Bool.and_eq_true] at h
    exact h.2

/-- Every address a write leaves behind the first cell is above a bound that was below all of them. -/
theorem Memory.wf_cons_writeCell {w : Nat} {x : Nat × BitVec w} {m : Memory w} {a : Nat} {v : BitVec w}
    (hx : x.1 < a) (h : Memory.wf (x :: m) = true) (hm : Memory.wf (writeCell m a v) = true) :
    Memory.wf (x :: writeCell m a v) = true := by
  cases m with
  | nil => simp [writeCell, Memory.wf, hx]
  | cons y rest =>
    simp only [Memory.wf, Bool.and_eq_true, decide_eq_true_eq] at h
    unfold writeCell at hm ⊢
    split at hm
    · rename_i hlt
      rw [if_pos hlt]
      simp only [Memory.wf, Bool.and_eq_true, decide_eq_true_eq] at hm ⊢
      exact ⟨hx, hm⟩
    · rename_i hlt
      rw [if_neg hlt]
      split at hm
      · rename_i heq
        rw [if_pos heq]
        simp only [Memory.wf, Bool.and_eq_true, decide_eq_true_eq]
        exact ⟨hx, hm⟩
      · rename_i heq
        rw [if_neg heq]
        simp only [Memory.wf, Bool.and_eq_true, decide_eq_true_eq]
        exact ⟨h.1, hm⟩

/-- A write keeps the canonical form. -/
theorem Memory.wf_writeCell {w : Nat} (m : Memory w) (a : Nat) (v : BitVec w) (h : Memory.wf m = true) :
    Memory.wf (writeCell m a v) = true := by
  induction m with
  | nil => rfl
  | cons x rest ih =>
    obtain ⟨k, u⟩ := x
    have hrest := ih (Memory.wf_tail h)
    unfold writeCell
    split
    · rename_i hlt
      simp only [Memory.wf, Bool.and_eq_true, decide_eq_true_eq]
      exact ⟨hlt, h⟩
    · split
      · rename_i h1 h2
        subst h2
        cases rest with
        | nil => rfl
        | cons y r => simpa [Memory.wf] using h
      · rename_i h1 h2
        exact Memory.wf_cons_writeCell (by show k < a; omega) h hrest

end Sys2Proof.Machine
end

