-- ==== Sys2Proof/Laws/State.lean ====
section
/-! SUPPORT. One lemma per field per named update of the state, each true by computation, so that no proof unfolds a
record update. -/

namespace Sys2Proof.Machine

section Setready

variable (s : State) (i : Slot) (v : Bool)

@[simp] theorem setReady_cfg : (setReady s i v).cfg = s.cfg := by cases i <;> rfl
@[simp] theorem setReady_buf : (setReady s i v).buf = s.buf := by cases i <;> rfl
@[simp] theorem setReady_ready0 : (setReady s i v).ready0 = if i = .a then v else s.ready0 := by cases i <;> rfl
@[simp] theorem setReady_ready1 : (setReady s i v).ready1 = if i = .b then v else s.ready1 := by cases i <;> rfl
@[simp] theorem setReady_active : (setReady s i v).active = s.active := by cases i <;> rfl
@[simp] theorem setReady_txState : (setReady s i v).txState = s.txState := by cases i <;> rfl
@[simp] theorem setReady_engineClaimed : (setReady s i v).engineClaimed = s.engineClaimed := by cases i <;> rfl
@[simp] theorem setReady_engAddr : (setReady s i v).engAddr = s.engAddr := by cases i <;> rfl
@[simp] theorem setReady_engCnt : (setReady s i v).engCnt = s.engCnt := by cases i <;> rfl
@[simp] theorem setReady_engBusy : (setReady s i v).engBusy = s.engBusy := by cases i <;> rfl
@[simp] theorem setReady_irqEn : (setReady s i v).irqEn = s.irqEn := by cases i <;> rfl
@[simp] theorem setReady_irqPend : (setReady s i v).irqPend = s.irqPend := by cases i <;> rfl
@[simp] theorem setReady_smEn : (setReady s i v).smEn = s.smEn := by cases i <;> rfl
@[simp] theorem setReady_gainCur0 : (setReady s i v).gainCur0 = s.gainCur0 := by cases i <;> rfl
@[simp] theorem setReady_gainCur1 : (setReady s i v).gainCur1 = s.gainCur1 := by cases i <;> rfl
@[simp] theorem setReady_gainTgt0 : (setReady s i v).gainTgt0 = s.gainTgt0 := by cases i <;> rfl
@[simp] theorem setReady_gainTgt1 : (setReady s i v).gainTgt1 = s.gainTgt1 := by cases i <;> rfl
@[simp] theorem setReady_mute0 : (setReady s i v).mute0 = s.mute0 := by cases i <;> rfl
@[simp] theorem setReady_mute1 : (setReady s i v).mute1 = s.mute1 := by cases i <;> rfl
@[simp] theorem setReady_mute2 : (setReady s i v).mute2 = s.mute2 := by cases i <;> rfl
@[simp] theorem setReady_vol0 : (setReady s i v).vol0 = s.vol0 := by cases i <;> rfl
@[simp] theorem setReady_vol1 : (setReady s i v).vol1 = s.vol1 := by cases i <;> rfl
@[simp] theorem setReady_vol2 : (setReady s i v).vol2 = s.vol2 := by cases i <;> rfl
@[simp] theorem setReady_rate : (setReady s i v).rate = s.rate := by cases i <;> rfl
@[simp] theorem setReady_clkDiv : (setReady s i v).clkDiv = s.clkDiv := by cases i <;> rfl
@[simp] theorem setReady_mclkDiv : (setReady s i v).mclkDiv = s.mclkDiv := by cases i <;> rfl
@[simp] theorem setReady_inited : (setReady s i v).inited = s.inited := by cases i <;> rfl
@[simp] theorem setReady_failed : (setReady s i v).failed = s.failed := by cases i <;> rfl
@[simp] theorem setReady_wphase : (setReady s i v).wphase = s.wphase := by cases i <;> rfl
@[simp] theorem setReady_wt : (setReady s i v).wt = s.wt := by cases i <;> rfl
@[simp] theorem setReady_widx : (setReady s i v).widx = s.widx := by cases i <;> rfl
@[simp] theorem setReady_stage : (setReady s i v).stage = s.stage := by cases i <;> rfl
@[simp] theorem setReady_txOut : (setReady s i v).txOut = s.txOut := by cases i <;> rfl
@[simp] theorem setReady_respP : (setReady s i v).respP = s.respP := by cases i <;> rfl
@[simp] theorem setReady_respC : (setReady s i v).respC = s.respC := by cases i <;> rfl
@[simp] theorem setReady_src : (setReady s i v).src = s.src := by cases i <;> rfl
@[simp] theorem setReady_engineAvailable : (setReady s i v).engineAvailable = s.engineAvailable := by cases i <;> rfl
@[simp] theorem setReady_portP : (setReady s i v).portP = s.portP := by cases i <;> rfl
@[simp] theorem setReady_portC : (setReady s i v).portC = s.portC := by cases i <;> rfl
@[simp] theorem setReady_turns : (setReady s i v).turns = s.turns := by cases i <;> rfl
@[simp] theorem setReady_tick : (setReady s i v).tick = s.tick := by cases i <;> rfl

end Setready

section Setmute

variable (s : State) (ch : Chan) (v : Bool)

@[simp] theorem setMute_cfg : (setMute s ch v).cfg = s.cfg := by cases ch <;> rfl
@[simp] theorem setMute_buf : (setMute s ch v).buf = s.buf := by cases ch <;> rfl
@[simp] theorem setMute_ready0 : (setMute s ch v).ready0 = s.ready0 := by cases ch <;> rfl
@[simp] theorem setMute_ready1 : (setMute s ch v).ready1 = s.ready1 := by cases ch <;> rfl
@[simp] theorem setMute_active : (setMute s ch v).active = s.active := by cases ch <;> rfl
@[simp] theorem setMute_txState : (setMute s ch v).txState = s.txState := by cases ch <;> rfl
@[simp] theorem setMute_engineClaimed : (setMute s ch v).engineClaimed = s.engineClaimed := by cases ch <;> rfl
@[simp] theorem setMute_engAddr : (setMute s ch v).engAddr = s.engAddr := by cases ch <;> rfl
@[simp] theorem setMute_engCnt : (setMute s ch v).engCnt = s.engCnt := by cases ch <;> rfl
@[simp] theorem setMute_engBusy : (setMute s ch v).engBusy = s.engBusy := by cases ch <;> rfl
@[simp] theorem setMute_irqEn : (setMute s ch v).irqEn = s.irqEn := by cases ch <;> rfl
@[simp] theorem setMute_irqPend : (setMute s ch v).irqPend = s.irqPend := by cases ch <;> rfl
@[simp] theorem setMute_smEn : (setMute s ch v).smEn = s.smEn := by cases ch <;> rfl
@[simp] theorem setMute_gainCur0 : (setMute s ch v).gainCur0 = s.gainCur0 := by cases ch <;> rfl
@[simp] theorem setMute_gainCur1 : (setMute s ch v).gainCur1 = s.gainCur1 := by cases ch <;> rfl
@[simp] theorem setMute_gainTgt0 : (setMute s ch v).gainTgt0 = s.gainTgt0 := by cases ch <;> rfl
@[simp] theorem setMute_gainTgt1 : (setMute s ch v).gainTgt1 = s.gainTgt1 := by cases ch <;> rfl
@[simp] theorem setMute_mute0 : (setMute s ch v).mute0 = if ch = .ch0 then v else s.mute0 := by cases ch <;> rfl
@[simp] theorem setMute_mute1 : (setMute s ch v).mute1 = if ch = .ch1 then v else s.mute1 := by cases ch <;> rfl
@[simp] theorem setMute_mute2 : (setMute s ch v).mute2 = if ch = .master then v else s.mute2 := by cases ch <;> rfl
@[simp] theorem setMute_vol0 : (setMute s ch v).vol0 = s.vol0 := by cases ch <;> rfl
@[simp] theorem setMute_vol1 : (setMute s ch v).vol1 = s.vol1 := by cases ch <;> rfl
@[simp] theorem setMute_vol2 : (setMute s ch v).vol2 = s.vol2 := by cases ch <;> rfl
@[simp] theorem setMute_rate : (setMute s ch v).rate = s.rate := by cases ch <;> rfl
@[simp] theorem setMute_clkDiv : (setMute s ch v).clkDiv = s.clkDiv := by cases ch <;> rfl
@[simp] theorem setMute_mclkDiv : (setMute s ch v).mclkDiv = s.mclkDiv := by cases ch <;> rfl
@[simp] theorem setMute_inited : (setMute s ch v).inited = s.inited := by cases ch <;> rfl
@[simp] theorem setMute_failed : (setMute s ch v).failed = s.failed := by cases ch <;> rfl
@[simp] theorem setMute_wphase : (setMute s ch v).wphase = s.wphase := by cases ch <;> rfl
@[simp] theorem setMute_wt : (setMute s ch v).wt = s.wt := by cases ch <;> rfl
@[simp] theorem setMute_widx : (setMute s ch v).widx = s.widx := by cases ch <;> rfl
@[simp] theorem setMute_stage : (setMute s ch v).stage = s.stage := by cases ch <;> rfl
@[simp] theorem setMute_txOut : (setMute s ch v).txOut = s.txOut := by cases ch <;> rfl
@[simp] theorem setMute_respP : (setMute s ch v).respP = s.respP := by cases ch <;> rfl
@[simp] theorem setMute_respC : (setMute s ch v).respC = s.respC := by cases ch <;> rfl
@[simp] theorem setMute_src : (setMute s ch v).src = s.src := by cases ch <;> rfl
@[simp] theorem setMute_engineAvailable : (setMute s ch v).engineAvailable = s.engineAvailable := by cases ch <;> rfl
@[simp] theorem setMute_portP : (setMute s ch v).portP = s.portP := by cases ch <;> rfl
@[simp] theorem setMute_portC : (setMute s ch v).portC = s.portC := by cases ch <;> rfl
@[simp] theorem setMute_turns : (setMute s ch v).turns = s.turns := by cases ch <;> rfl
@[simp] theorem setMute_tick : (setMute s ch v).tick = s.tick := by cases ch <;> rfl

end Setmute

section Setvol

variable (s : State) (ch : Chan) (v : Int)

@[simp] theorem setVol_cfg : (setVol s ch v).cfg = s.cfg := by cases ch <;> rfl
@[simp] theorem setVol_buf : (setVol s ch v).buf = s.buf := by cases ch <;> rfl
@[simp] theorem setVol_ready0 : (setVol s ch v).ready0 = s.ready0 := by cases ch <;> rfl
@[simp] theorem setVol_ready1 : (setVol s ch v).ready1 = s.ready1 := by cases ch <;> rfl
@[simp] theorem setVol_active : (setVol s ch v).active = s.active := by cases ch <;> rfl
@[simp] theorem setVol_txState : (setVol s ch v).txState = s.txState := by cases ch <;> rfl
@[simp] theorem setVol_engineClaimed : (setVol s ch v).engineClaimed = s.engineClaimed := by cases ch <;> rfl
@[simp] theorem setVol_engAddr : (setVol s ch v).engAddr = s.engAddr := by cases ch <;> rfl
@[simp] theorem setVol_engCnt : (setVol s ch v).engCnt = s.engCnt := by cases ch <;> rfl
@[simp] theorem setVol_engBusy : (setVol s ch v).engBusy = s.engBusy := by cases ch <;> rfl
@[simp] theorem setVol_irqEn : (setVol s ch v).irqEn = s.irqEn := by cases ch <;> rfl
@[simp] theorem setVol_irqPend : (setVol s ch v).irqPend = s.irqPend := by cases ch <;> rfl
@[simp] theorem setVol_smEn : (setVol s ch v).smEn = s.smEn := by cases ch <;> rfl
@[simp] theorem setVol_gainCur0 : (setVol s ch v).gainCur0 = s.gainCur0 := by cases ch <;> rfl
@[simp] theorem setVol_gainCur1 : (setVol s ch v).gainCur1 = s.gainCur1 := by cases ch <;> rfl
@[simp] theorem setVol_gainTgt0 : (setVol s ch v).gainTgt0 = s.gainTgt0 := by cases ch <;> rfl
@[simp] theorem setVol_gainTgt1 : (setVol s ch v).gainTgt1 = s.gainTgt1 := by cases ch <;> rfl
@[simp] theorem setVol_mute0 : (setVol s ch v).mute0 = s.mute0 := by cases ch <;> rfl
@[simp] theorem setVol_mute1 : (setVol s ch v).mute1 = s.mute1 := by cases ch <;> rfl
@[simp] theorem setVol_mute2 : (setVol s ch v).mute2 = s.mute2 := by cases ch <;> rfl
@[simp] theorem setVol_vol0 : (setVol s ch v).vol0 = if ch = .ch0 then BitVec.ofInt 16 v else s.vol0 := by cases ch <;> rfl
@[simp] theorem setVol_vol1 : (setVol s ch v).vol1 = if ch = .ch1 then BitVec.ofInt 16 v else s.vol1 := by cases ch <;> rfl
@[simp] theorem setVol_vol2 : (setVol s ch v).vol2 = if ch = .master then BitVec.ofInt 16 v else s.vol2 := by cases ch <;> rfl
@[simp] theorem setVol_rate : (setVol s ch v).rate = s.rate := by cases ch <;> rfl
@[simp] theorem setVol_clkDiv : (setVol s ch v).clkDiv = s.clkDiv := by cases ch <;> rfl
@[simp] theorem setVol_mclkDiv : (setVol s ch v).mclkDiv = s.mclkDiv := by cases ch <;> rfl
@[simp] theorem setVol_inited : (setVol s ch v).inited = s.inited := by cases ch <;> rfl
@[simp] theorem setVol_failed : (setVol s ch v).failed = s.failed := by cases ch <;> rfl
@[simp] theorem setVol_wphase : (setVol s ch v).wphase = s.wphase := by cases ch <;> rfl
@[simp] theorem setVol_wt : (setVol s ch v).wt = s.wt := by cases ch <;> rfl
@[simp] theorem setVol_widx : (setVol s ch v).widx = s.widx := by cases ch <;> rfl
@[simp] theorem setVol_stage : (setVol s ch v).stage = s.stage := by cases ch <;> rfl
@[simp] theorem setVol_txOut : (setVol s ch v).txOut = s.txOut := by cases ch <;> rfl
@[simp] theorem setVol_respP : (setVol s ch v).respP = s.respP := by cases ch <;> rfl
@[simp] theorem setVol_respC : (setVol s ch v).respC = s.respC := by cases ch <;> rfl
@[simp] theorem setVol_src : (setVol s ch v).src = s.src := by cases ch <;> rfl
@[simp] theorem setVol_engineAvailable : (setVol s ch v).engineAvailable = s.engineAvailable := by cases ch <;> rfl
@[simp] theorem setVol_portP : (setVol s ch v).portP = s.portP := by cases ch <;> rfl
@[simp] theorem setVol_portC : (setVol s ch v).portC = s.portC := by cases ch <;> rfl
@[simp] theorem setVol_turns : (setVol s ch v).turns = s.turns := by cases ch <;> rfl
@[simp] theorem setVol_tick : (setVol s ch v).tick = s.tick := by cases ch <;> rfl

end Setvol

section Respond

variable (s : State) (port : Port) (st : Status) (v : Word)

@[simp] theorem respond_cfg : (respond s port st v).cfg = s.cfg := by cases port <;> rfl
@[simp] theorem respond_buf : (respond s port st v).buf = s.buf := by cases port <;> rfl
@[simp] theorem respond_ready0 : (respond s port st v).ready0 = s.ready0 := by cases port <;> rfl
@[simp] theorem respond_ready1 : (respond s port st v).ready1 = s.ready1 := by cases port <;> rfl
@[simp] theorem respond_active : (respond s port st v).active = s.active := by cases port <;> rfl
@[simp] theorem respond_txState : (respond s port st v).txState = s.txState := by cases port <;> rfl
@[simp] theorem respond_engineClaimed : (respond s port st v).engineClaimed = s.engineClaimed := by cases port <;> rfl
@[simp] theorem respond_engAddr : (respond s port st v).engAddr = s.engAddr := by cases port <;> rfl
@[simp] theorem respond_engCnt : (respond s port st v).engCnt = s.engCnt := by cases port <;> rfl
@[simp] theorem respond_engBusy : (respond s port st v).engBusy = s.engBusy := by cases port <;> rfl
@[simp] theorem respond_irqEn : (respond s port st v).irqEn = s.irqEn := by cases port <;> rfl
@[simp] theorem respond_irqPend : (respond s port st v).irqPend = s.irqPend := by cases port <;> rfl
@[simp] theorem respond_smEn : (respond s port st v).smEn = s.smEn := by cases port <;> rfl
@[simp] theorem respond_gainCur0 : (respond s port st v).gainCur0 = s.gainCur0 := by cases port <;> rfl
@[simp] theorem respond_gainCur1 : (respond s port st v).gainCur1 = s.gainCur1 := by cases port <;> rfl
@[simp] theorem respond_gainTgt0 : (respond s port st v).gainTgt0 = s.gainTgt0 := by cases port <;> rfl
@[simp] theorem respond_gainTgt1 : (respond s port st v).gainTgt1 = s.gainTgt1 := by cases port <;> rfl
@[simp] theorem respond_mute0 : (respond s port st v).mute0 = s.mute0 := by cases port <;> rfl
@[simp] theorem respond_mute1 : (respond s port st v).mute1 = s.mute1 := by cases port <;> rfl
@[simp] theorem respond_mute2 : (respond s port st v).mute2 = s.mute2 := by cases port <;> rfl
@[simp] theorem respond_vol0 : (respond s port st v).vol0 = s.vol0 := by cases port <;> rfl
@[simp] theorem respond_vol1 : (respond s port st v).vol1 = s.vol1 := by cases port <;> rfl
@[simp] theorem respond_vol2 : (respond s port st v).vol2 = s.vol2 := by cases port <;> rfl
@[simp] theorem respond_rate : (respond s port st v).rate = s.rate := by cases port <;> rfl
@[simp] theorem respond_clkDiv : (respond s port st v).clkDiv = s.clkDiv := by cases port <;> rfl
@[simp] theorem respond_mclkDiv : (respond s port st v).mclkDiv = s.mclkDiv := by cases port <;> rfl
@[simp] theorem respond_inited : (respond s port st v).inited = s.inited := by cases port <;> rfl
@[simp] theorem respond_failed : (respond s port st v).failed = s.failed := by cases port <;> rfl
@[simp] theorem respond_wphase : (respond s port st v).wphase = s.wphase := by cases port <;> rfl
@[simp] theorem respond_wt : (respond s port st v).wt = s.wt := by cases port <;> rfl
@[simp] theorem respond_widx : (respond s port st v).widx = s.widx := by cases port <;> rfl
@[simp] theorem respond_stage : (respond s port st v).stage = s.stage := by cases port <;> rfl
@[simp] theorem respond_txOut : (respond s port st v).txOut = s.txOut := by cases port <;> rfl
@[simp] theorem respond_respP : (respond s port st v).respP = if port = .p then s.respP ++ [responseWord st v] else s.respP := by cases port <;> rfl
@[simp] theorem respond_respC : (respond s port st v).respC = if port = .c then s.respC ++ [responseWord st v] else s.respC := by cases port <;> rfl
@[simp] theorem respond_src : (respond s port st v).src = s.src := by cases port <;> rfl
@[simp] theorem respond_engineAvailable : (respond s port st v).engineAvailable = s.engineAvailable := by cases port <;> rfl
@[simp] theorem respond_portP : (respond s port st v).portP = s.portP := by cases port <;> rfl
@[simp] theorem respond_portC : (respond s port st v).portC = s.portC := by cases port <;> rfl
@[simp] theorem respond_turns : (respond s port st v).turns = s.turns := by cases port <;> rfl
@[simp] theorem respond_tick : (respond s port st v).tick = s.tick := by cases port <;> rfl

end Respond

section Txpush

variable (s : State) (w : Word)

@[simp] theorem txPush_cfg : (txPush s w).cfg = s.cfg := rfl
@[simp] theorem txPush_buf : (txPush s w).buf = s.buf := rfl
@[simp] theorem txPush_ready0 : (txPush s w).ready0 = s.ready0 := rfl
@[simp] theorem txPush_ready1 : (txPush s w).ready1 = s.ready1 := rfl
@[simp] theorem txPush_active : (txPush s w).active = s.active := rfl
@[simp] theorem txPush_txState : (txPush s w).txState = s.txState := rfl
@[simp] theorem txPush_engineClaimed : (txPush s w).engineClaimed = s.engineClaimed := rfl
@[simp] theorem txPush_engAddr : (txPush s w).engAddr = s.engAddr := rfl
@[simp] theorem txPush_engCnt : (txPush s w).engCnt = s.engCnt := rfl
@[simp] theorem txPush_engBusy : (txPush s w).engBusy = s.engBusy := rfl
@[simp] theorem txPush_irqEn : (txPush s w).irqEn = s.irqEn := rfl
@[simp] theorem txPush_irqPend : (txPush s w).irqPend = s.irqPend := rfl
@[simp] theorem txPush_smEn : (txPush s w).smEn = s.smEn := rfl
@[simp] theorem txPush_gainCur0 : (txPush s w).gainCur0 = s.gainCur0 := rfl
@[simp] theorem txPush_gainCur1 : (txPush s w).gainCur1 = s.gainCur1 := rfl
@[simp] theorem txPush_gainTgt0 : (txPush s w).gainTgt0 = s.gainTgt0 := rfl
@[simp] theorem txPush_gainTgt1 : (txPush s w).gainTgt1 = s.gainTgt1 := rfl
@[simp] theorem txPush_mute0 : (txPush s w).mute0 = s.mute0 := rfl
@[simp] theorem txPush_mute1 : (txPush s w).mute1 = s.mute1 := rfl
@[simp] theorem txPush_mute2 : (txPush s w).mute2 = s.mute2 := rfl
@[simp] theorem txPush_vol0 : (txPush s w).vol0 = s.vol0 := rfl
@[simp] theorem txPush_vol1 : (txPush s w).vol1 = s.vol1 := rfl
@[simp] theorem txPush_vol2 : (txPush s w).vol2 = s.vol2 := rfl
@[simp] theorem txPush_rate : (txPush s w).rate = s.rate := rfl
@[simp] theorem txPush_clkDiv : (txPush s w).clkDiv = s.clkDiv := rfl
@[simp] theorem txPush_mclkDiv : (txPush s w).mclkDiv = s.mclkDiv := rfl
@[simp] theorem txPush_inited : (txPush s w).inited = s.inited := rfl
@[simp] theorem txPush_failed : (txPush s w).failed = s.failed := rfl
@[simp] theorem txPush_wphase : (txPush s w).wphase = s.wphase := rfl
@[simp] theorem txPush_wt : (txPush s w).wt = s.wt := rfl
@[simp] theorem txPush_widx : (txPush s w).widx = s.widx := rfl
@[simp] theorem txPush_stage : (txPush s w).stage = s.stage := rfl
@[simp] theorem txPush_txOut : (txPush s w).txOut = s.txOut ++ [w] := rfl
@[simp] theorem txPush_respP : (txPush s w).respP = s.respP := rfl
@[simp] theorem txPush_respC : (txPush s w).respC = s.respC := rfl
@[simp] theorem txPush_src : (txPush s w).src = s.src := rfl
@[simp] theorem txPush_engineAvailable : (txPush s w).engineAvailable = s.engineAvailable := rfl
@[simp] theorem txPush_portP : (txPush s w).portP = s.portP := rfl
@[simp] theorem txPush_portC : (txPush s w).portC = s.portC := rfl
@[simp] theorem txPush_turns : (txPush s w).turns = s.turns := rfl
@[simp] theorem txPush_tick : (txPush s w).tick = s.tick := rfl

end Txpush

section Startturn

variable (s : State)

@[simp] theorem startTurn_cfg : (startTurn s).cfg = s.cfg := rfl
@[simp] theorem startTurn_buf : (startTurn s).buf = s.buf := rfl
@[simp] theorem startTurn_ready0 : (startTurn s).ready0 = s.ready0 := rfl
@[simp] theorem startTurn_ready1 : (startTurn s).ready1 = s.ready1 := rfl
@[simp] theorem startTurn_active : (startTurn s).active = s.active := rfl
@[simp] theorem startTurn_txState : (startTurn s).txState = s.txState := rfl
@[simp] theorem startTurn_engineClaimed : (startTurn s).engineClaimed = s.engineClaimed := rfl
@[simp] theorem startTurn_engAddr : (startTurn s).engAddr = s.engAddr := rfl
@[simp] theorem startTurn_engCnt : (startTurn s).engCnt = s.engCnt := rfl
@[simp] theorem startTurn_engBusy : (startTurn s).engBusy = s.engBusy := rfl
@[simp] theorem startTurn_irqEn : (startTurn s).irqEn = s.irqEn := rfl
@[simp] theorem startTurn_irqPend : (startTurn s).irqPend = s.irqPend := rfl
@[simp] theorem startTurn_smEn : (startTurn s).smEn = s.smEn := rfl
@[simp] theorem startTurn_gainCur0 : (startTurn s).gainCur0 = s.gainCur0 := rfl
@[simp] theorem startTurn_gainCur1 : (startTurn s).gainCur1 = s.gainCur1 := rfl
@[simp] theorem startTurn_gainTgt0 : (startTurn s).gainTgt0 = s.gainTgt0 := rfl
@[simp] theorem startTurn_gainTgt1 : (startTurn s).gainTgt1 = s.gainTgt1 := rfl
@[simp] theorem startTurn_mute0 : (startTurn s).mute0 = s.mute0 := rfl
@[simp] theorem startTurn_mute1 : (startTurn s).mute1 = s.mute1 := rfl
@[simp] theorem startTurn_mute2 : (startTurn s).mute2 = s.mute2 := rfl
@[simp] theorem startTurn_vol0 : (startTurn s).vol0 = s.vol0 := rfl
@[simp] theorem startTurn_vol1 : (startTurn s).vol1 = s.vol1 := rfl
@[simp] theorem startTurn_vol2 : (startTurn s).vol2 = s.vol2 := rfl
@[simp] theorem startTurn_rate : (startTurn s).rate = s.rate := rfl
@[simp] theorem startTurn_clkDiv : (startTurn s).clkDiv = s.clkDiv := rfl
@[simp] theorem startTurn_mclkDiv : (startTurn s).mclkDiv = s.mclkDiv := rfl
@[simp] theorem startTurn_inited : (startTurn s).inited = s.inited := rfl
@[simp] theorem startTurn_failed : (startTurn s).failed = s.failed := rfl
@[simp] theorem startTurn_wphase : (startTurn s).wphase = s.wphase := rfl
@[simp] theorem startTurn_wt : (startTurn s).wt = s.wt := rfl
@[simp] theorem startTurn_widx : (startTurn s).widx = s.widx := rfl
@[simp] theorem startTurn_stage : (startTurn s).stage = s.stage := rfl
@[simp] theorem startTurn_txOut : (startTurn s).txOut = s.txOut := rfl
@[simp] theorem startTurn_respP : (startTurn s).respP = s.respP := rfl
@[simp] theorem startTurn_respC : (startTurn s).respC = s.respC := rfl
@[simp] theorem startTurn_src : (startTurn s).src = s.src := rfl
@[simp] theorem startTurn_engineAvailable : (startTurn s).engineAvailable = s.engineAvailable := rfl
@[simp] theorem startTurn_portP : (startTurn s).portP = s.portP := rfl
@[simp] theorem startTurn_portC : (startTurn s).portC = s.portC := rfl
@[simp] theorem startTurn_turns : (startTurn s).turns = s.turns.tail := rfl
@[simp] theorem startTurn_tick : (startTurn s).tick = s.tick + 1 := rfl

end Startturn

section Completetransfer

variable (s : State)

@[simp] theorem completeTransfer_cfg : (completeTransfer s).cfg = s.cfg := rfl
@[simp] theorem completeTransfer_buf : (completeTransfer s).buf = s.buf := rfl
@[simp] theorem completeTransfer_ready0 : (completeTransfer s).ready0 = s.ready0 := rfl
@[simp] theorem completeTransfer_ready1 : (completeTransfer s).ready1 = s.ready1 := rfl
@[simp] theorem completeTransfer_active : (completeTransfer s).active = s.active := rfl
@[simp] theorem completeTransfer_txState : (completeTransfer s).txState = s.txState := rfl
@[simp] theorem completeTransfer_engineClaimed : (completeTransfer s).engineClaimed = s.engineClaimed := rfl
@[simp] theorem completeTransfer_engAddr : (completeTransfer s).engAddr = s.engAddr := rfl
@[simp] theorem completeTransfer_engCnt : (completeTransfer s).engCnt = s.engCnt := rfl
@[simp] theorem completeTransfer_engBusy : (completeTransfer s).engBusy = false := rfl
@[simp] theorem completeTransfer_irqEn : (completeTransfer s).irqEn = s.irqEn := rfl
@[simp] theorem completeTransfer_irqPend : (completeTransfer s).irqPend = if s.irqEn then true else s.irqPend := rfl
@[simp] theorem completeTransfer_smEn : (completeTransfer s).smEn = s.smEn := rfl
@[simp] theorem completeTransfer_gainCur0 : (completeTransfer s).gainCur0 = s.gainCur0 := rfl
@[simp] theorem completeTransfer_gainCur1 : (completeTransfer s).gainCur1 = s.gainCur1 := rfl
@[simp] theorem completeTransfer_gainTgt0 : (completeTransfer s).gainTgt0 = s.gainTgt0 := rfl
@[simp] theorem completeTransfer_gainTgt1 : (completeTransfer s).gainTgt1 = s.gainTgt1 := rfl
@[simp] theorem completeTransfer_mute0 : (completeTransfer s).mute0 = s.mute0 := rfl
@[simp] theorem completeTransfer_mute1 : (completeTransfer s).mute1 = s.mute1 := rfl
@[simp] theorem completeTransfer_mute2 : (completeTransfer s).mute2 = s.mute2 := rfl
@[simp] theorem completeTransfer_vol0 : (completeTransfer s).vol0 = s.vol0 := rfl
@[simp] theorem completeTransfer_vol1 : (completeTransfer s).vol1 = s.vol1 := rfl
@[simp] theorem completeTransfer_vol2 : (completeTransfer s).vol2 = s.vol2 := rfl
@[simp] theorem completeTransfer_rate : (completeTransfer s).rate = s.rate := rfl
@[simp] theorem completeTransfer_clkDiv : (completeTransfer s).clkDiv = s.clkDiv := rfl
@[simp] theorem completeTransfer_mclkDiv : (completeTransfer s).mclkDiv = s.mclkDiv := rfl
@[simp] theorem completeTransfer_inited : (completeTransfer s).inited = s.inited := rfl
@[simp] theorem completeTransfer_failed : (completeTransfer s).failed = s.failed := rfl
@[simp] theorem completeTransfer_wphase : (completeTransfer s).wphase = s.wphase := rfl
@[simp] theorem completeTransfer_wt : (completeTransfer s).wt = s.wt := rfl
@[simp] theorem completeTransfer_widx : (completeTransfer s).widx = s.widx := rfl
@[simp] theorem completeTransfer_stage : (completeTransfer s).stage = s.stage := rfl
@[simp] theorem completeTransfer_txOut : (completeTransfer s).txOut = s.txOut := rfl
@[simp] theorem completeTransfer_respP : (completeTransfer s).respP = s.respP := rfl
@[simp] theorem completeTransfer_respC : (completeTransfer s).respC = s.respC := rfl
@[simp] theorem completeTransfer_src : (completeTransfer s).src = s.src := rfl
@[simp] theorem completeTransfer_engineAvailable : (completeTransfer s).engineAvailable = s.engineAvailable := rfl
@[simp] theorem completeTransfer_portP : (completeTransfer s).portP = s.portP := rfl
@[simp] theorem completeTransfer_portC : (completeTransfer s).portC = s.portC := rfl
@[simp] theorem completeTransfer_turns : (completeTransfer s).turns = s.turns := rfl
@[simp] theorem completeTransfer_tick : (completeTransfer s).tick = s.tick := rfl

end Completetransfer

section Restart

variable (s : State) (r : Nat) (cd md : Divider)

@[simp] theorem restart_cfg : (restart s r cd md).cfg = s.cfg := rfl
@[simp] theorem restart_buf : (restart s r cd md).buf = s.buf := rfl
@[simp] theorem restart_ready0 : (restart s r cd md).ready0 = false := rfl
@[simp] theorem restart_ready1 : (restart s r cd md).ready1 = false := rfl
@[simp] theorem restart_active : (restart s r cd md).active = .a := rfl
@[simp] theorem restart_txState : (restart s r cd md).txState = .idle := rfl
@[simp] theorem restart_engineClaimed : (restart s r cd md).engineClaimed = s.engineClaimed := rfl
@[simp] theorem restart_engAddr : (restart s r cd md).engAddr = 0#32 := rfl
@[simp] theorem restart_engCnt : (restart s r cd md).engCnt = 0#32 := rfl
@[simp] theorem restart_engBusy : (restart s r cd md).engBusy = false := rfl
@[simp] theorem restart_irqEn : (restart s r cd md).irqEn = true := rfl
@[simp] theorem restart_irqPend : (restart s r cd md).irqPend = false := rfl
@[simp] theorem restart_smEn : (restart s r cd md).smEn = true := rfl
@[simp] theorem restart_gainCur0 : (restart s r cd md).gainCur0 = 1 := rfl
@[simp] theorem restart_gainCur1 : (restart s r cd md).gainCur1 = 1 := rfl
@[simp] theorem restart_gainTgt0 : (restart s r cd md).gainTgt0 = 1 := rfl
@[simp] theorem restart_gainTgt1 : (restart s r cd md).gainTgt1 = 1 := rfl
@[simp] theorem restart_mute0 : (restart s r cd md).mute0 = s.mute0 := rfl
@[simp] theorem restart_mute1 : (restart s r cd md).mute1 = s.mute1 := rfl
@[simp] theorem restart_mute2 : (restart s r cd md).mute2 = s.mute2 := rfl
@[simp] theorem restart_vol0 : (restart s r cd md).vol0 = s.vol0 := rfl
@[simp] theorem restart_vol1 : (restart s r cd md).vol1 = s.vol1 := rfl
@[simp] theorem restart_vol2 : (restart s r cd md).vol2 = s.vol2 := rfl
@[simp] theorem restart_rate : (restart s r cd md).rate = BitVec.ofNat 32 r := rfl
@[simp] theorem restart_clkDiv : (restart s r cd md).clkDiv = cd := rfl
@[simp] theorem restart_mclkDiv : (restart s r cd md).mclkDiv = md := rfl
@[simp] theorem restart_inited : (restart s r cd md).inited = true := rfl
@[simp] theorem restart_failed : (restart s r cd md).failed = s.failed := rfl
@[simp] theorem restart_wphase : (restart s r cd md).wphase = s.wphase := rfl
@[simp] theorem restart_wt : (restart s r cd md).wt = s.wt := rfl
@[simp] theorem restart_widx : (restart s r cd md).widx = s.widx := rfl
@[simp] theorem restart_stage : (restart s r cd md).stage = s.stage := rfl
@[simp] theorem restart_txOut : (restart s r cd md).txOut = s.txOut := rfl
@[simp] theorem restart_respP : (restart s r cd md).respP = s.respP := rfl
@[simp] theorem restart_respC : (restart s r cd md).respC = s.respC := rfl
@[simp] theorem restart_src : (restart s r cd md).src = s.src := rfl
@[simp] theorem restart_engineAvailable : (restart s r cd md).engineAvailable = s.engineAvailable := rfl
@[simp] theorem restart_portP : (restart s r cd md).portP = s.portP := rfl
@[simp] theorem restart_portC : (restart s r cd md).portC = s.portC := rfl
@[simp] theorem restart_turns : (restart s r cd md).turns = s.turns := rfl
@[simp] theorem restart_tick : (restart s r cd md).tick = s.tick := rfl

end Restart

section Process

variable (s : State) (f : Fmt) (ptr n : Nat)

@[simp] theorem process_cfg : (process s f ptr n).cfg = s.cfg := rfl
@[simp] theorem process_buf : (process s f ptr n).buf = s.buf := rfl
@[simp] theorem process_ready0 : (process s f ptr n).ready0 = s.ready0 := rfl
@[simp] theorem process_ready1 : (process s f ptr n).ready1 = s.ready1 := rfl
@[simp] theorem process_active : (process s f ptr n).active = s.active := rfl
@[simp] theorem process_txState : (process s f ptr n).txState = s.txState := rfl
@[simp] theorem process_engineClaimed : (process s f ptr n).engineClaimed = s.engineClaimed := rfl
@[simp] theorem process_engAddr : (process s f ptr n).engAddr = s.engAddr := rfl
@[simp] theorem process_engCnt : (process s f ptr n).engCnt = s.engCnt := rfl
@[simp] theorem process_engBusy : (process s f ptr n).engBusy = s.engBusy := rfl
@[simp] theorem process_irqEn : (process s f ptr n).irqEn = s.irqEn := rfl
@[simp] theorem process_irqPend : (process s f ptr n).irqPend = s.irqPend := rfl
@[simp] theorem process_smEn : (process s f ptr n).smEn = s.smEn := rfl
@[simp] theorem process_gainCur0 : (process s f ptr n).gainCur0 = if 1 ≤ n then target s .left else s.gainCur0 := rfl
@[simp] theorem process_gainCur1 : (process s f ptr n).gainCur1 = if 1 ≤ n then target s .right else s.gainCur1 := rfl
@[simp] theorem process_gainTgt0 : (process s f ptr n).gainTgt0 = target s .left := rfl
@[simp] theorem process_gainTgt1 : (process s f ptr n).gainTgt1 = target s .right := rfl
@[simp] theorem process_mute0 : (process s f ptr n).mute0 = s.mute0 := rfl
@[simp] theorem process_mute1 : (process s f ptr n).mute1 = s.mute1 := rfl
@[simp] theorem process_mute2 : (process s f ptr n).mute2 = s.mute2 := rfl
@[simp] theorem process_vol0 : (process s f ptr n).vol0 = s.vol0 := rfl
@[simp] theorem process_vol1 : (process s f ptr n).vol1 = s.vol1 := rfl
@[simp] theorem process_vol2 : (process s f ptr n).vol2 = s.vol2 := rfl
@[simp] theorem process_rate : (process s f ptr n).rate = s.rate := rfl
@[simp] theorem process_clkDiv : (process s f ptr n).clkDiv = s.clkDiv := rfl
@[simp] theorem process_mclkDiv : (process s f ptr n).mclkDiv = s.mclkDiv := rfl
@[simp] theorem process_inited : (process s f ptr n).inited = s.inited := rfl
@[simp] theorem process_failed : (process s f ptr n).failed = s.failed := rfl
@[simp] theorem process_wphase : (process s f ptr n).wphase = s.wphase := rfl
@[simp] theorem process_wt : (process s f ptr n).wt = s.wt := rfl
@[simp] theorem process_widx : (process s f ptr n).widx = s.widx := rfl
@[simp] theorem process_stage : (process s f ptr n).stage = stageWords s f ptr n := rfl
@[simp] theorem process_txOut : (process s f ptr n).txOut = s.txOut := rfl
@[simp] theorem process_respP : (process s f ptr n).respP = s.respP := rfl
@[simp] theorem process_respC : (process s f ptr n).respC = s.respC := rfl
@[simp] theorem process_src : (process s f ptr n).src = s.src := rfl
@[simp] theorem process_engineAvailable : (process s f ptr n).engineAvailable = s.engineAvailable := rfl
@[simp] theorem process_portP : (process s f ptr n).portP = s.portP := rfl
@[simp] theorem process_portC : (process s f ptr n).portC = s.portC := rfl
@[simp] theorem process_turns : (process s f ptr n).turns = s.turns := rfl
@[simp] theorem process_tick : (process s f ptr n).tick = s.tick := rfl

end Process

/-! ### Accessors after updates -/

@[simp] theorem getReady_setReady (s : State) (i j : Slot) (v : Bool) :
    getReady (setReady s i v) j = if j = i then v else getReady s j := by
  cases i <;> cases j <;> rfl

@[simp] theorem getMute_setMute (s : State) (i j : Chan) (v : Bool) :
    getMute (setMute s i v) j = if j = i then v else getMute s j := by
  cases i <;> cases j <;> rfl

@[simp] theorem getVol_setVol (s : State) (i j : Chan) (v : Int) :
    getVol (setVol s i v) j = if j = i then (BitVec.ofInt 16 v).toInt else getVol s j := by
  cases i <;> cases j <;> rfl

@[simp] theorem getReady_respond (s : State) (port : Port) (st : Status) (v : Word) (j : Slot) :
    getReady (respond s port st v) j = getReady s j := by
  cases port <;> cases j <;> rfl

@[simp] theorem getReady_startTurn (s : State) (j : Slot) : getReady (startTurn s) j = getReady s j := by
  cases j <;> rfl

@[simp] theorem answerError_eq (s : State) (port : Port) (st : Status) : answerError s port st = respond s port st 0#32 := rfl

@[simp] theorem otherSlot_otherSlot (i : Slot) : otherSlot (otherSlot i) = i := by cases i <;> rfl

@[simp] theorem otherSlot_ne (i : Slot) : otherSlot i ≠ i := by cases i <;> decide

theorem eq_otherSlot_of_ne {i j : Slot} (h : i ≠ j) : i = otherSlot j := by
  cases i <;> cases j <;> first | rfl | exact absurd rfl h

end Sys2Proof.Machine
end

