-- ==== Sys2Proof/Laws/Ops.lean ====
section
/-! SUPPORT. For each shared operation, one lemma that says everything it can do. -/

namespace Sys2Proof.Machine

@[simp] theorem next_eq_next {s t : State} : (Host.Outcome.next s : Result) = .next t ↔ t = s := by
  simp [eq_comm (a := t)]

@[simp] theorem toResult_eq_next {x : Except Fault State} {t : State} : toResult x = .next t ↔ x = .ok t := by
  cases x <;> simp [toResult]

/-- BufRead gives a word exactly where a buffer word has a value, or in the silence buffer, and there it is zero. -/
theorem bufRead_eq_ok {s : State} {a : Nat} {v : Word} :
    bufRead s a = .ok v ↔
      (a < silenceBase s.cfg ∧ readCell s.buf a = some v) ∨
      (silenceBase s.cfg ≤ a ∧ a < 3 * bufWords s.cfg ∧ v = 0#32) := by
  unfold bufRead
  split
  · rename_i h
    cases hc : readCell s.buf a with
    | none => simp [h]
    | some u => simp [h]
  · rename_i h
    split
    · rename_i h2
      constructor
      · intro hv
        exact .inr ⟨by omega, h2, by simpa using hv.symm⟩
      · rintro (⟨h3, -⟩ | ⟨-, -, rfl⟩)
        · omega
        · rfl
    · rename_i h2
      simp
      omega

/-- BufRead looks at the configuration and the buffer memory alone. -/
theorem bufRead_congr {s t : State} (hc : t.cfg = s.cfg) (hb : t.buf = s.buf) (a : Nat) : bufRead t a = bufRead s a := by
  simp [bufRead, hc, hb]

/-- BufWrite succeeds exactly below 2W, and then sets that one word. -/
theorem bufWrite_eq_ok {s t : State} {a : Nat} {v : Word} :
    bufWrite s a v = .ok t ↔ a < silenceBase s.cfg ∧ t = { s with buf := writeCell s.buf a v } := by
  unfold bufWrite
  split
  · rename_i h
    simp [h, eq_comm (a := t)]
  · rename_i h
    simp [h]

/-- BufWrite keeps the canonical form of the buffer memory. -/
theorem bufWrite_keeps_wf {s t : State} {a : Nat} {v : Word} (h : bufWrite s a v = .ok t)
    (hw : Memory.wf s.buf = true) : Memory.wf t.buf = true := by
  obtain ⟨-, rfl⟩ := bufWrite_eq_ok.mp h
  exact Memory.wf_writeCell _ _ _ hw

/-- ARM succeeds exactly when the engine is not busy, and then programs a transfer of W words. -/
theorem arm_eq_ok {s t : State} {b : Nat} :
    arm s b = .ok t ↔ s.engBusy = false ∧
      t = { s with engAddr := BitVec.ofNat 32 b, engCnt := BitVec.ofNat 32 (bufWords s.cfg), engBusy := true } := by
  unfold arm
  cases s.engBusy <;> simp [eq_comm (a := t)]

/-- Clearing the drained buffer's flag, by TXSTATE. -/
theorem clearDrained_eq (s : State) :
    clearDrained s =
      if s.txState = .drainA ∨ s.txState = .drainB then setReady s s.active false else s := by
  unfold clearDrained
  cases s.txState <;> simp

/-- The handler's rearm: with the engine idle, either the other buffer is armed and becomes active, or the silence
buffer is armed and ACTIVE stays. -/
theorem rearm_eq_ok {s t : State} :
    rearm s = .ok t ↔ s.engBusy = false ∧
      ((getReady s (otherSlot s.active) = true ∧
          t = { s with
            active := otherSlot s.active
            engAddr := BitVec.ofNat 32 (slotBase s.cfg (otherSlot s.active))
            engCnt := BitVec.ofNat 32 (bufWords s.cfg)
            engBusy := true
            txState := drainOf (otherSlot s.active) }) ∨
       (getReady s (otherSlot s.active) = false ∧
          t = { s with
            engAddr := BitVec.ofNat 32 (silenceBase s.cfg)
            engCnt := BitVec.ofNat 32 (bufWords s.cfg)
            engBusy := true
            txState := .drainSilence })) := by
  unfold rearm arm
  cases hr : getReady s (otherSlot s.active) <;> cases hb : s.engBusy <;> simp [hr, eq_comm (a := t), Except.map]

/-- The handler's work after IRQ_PEND is cleared. -/
theorem serveCompletion_eq_ok {s t : State} :
    serveCompletion s = .ok t ↔ (s.txState = .idle ∧ t = s) ∨ (s.txState ≠ .idle ∧ rearm (clearDrained s) = .ok t) := by
  unfold serveCompletion
  cases s.txState <;> simp [eq_comm (a := t)]

/-- Taking the completion interrupt: nothing more with TXSTATE = IDLE, else the drained flag is cleared and the next
transfer armed. -/
theorem takeCompletion_eq_next {s t : State} :
    takeCompletion s = .next t ↔
      (s.txState = .idle ∧ t = { s with irqPend := false }) ∨
      (s.txState ≠ .idle ∧ rearm (clearDrained { s with irqPend := false }) = .ok t) := by
  unfold takeCompletion
  rw [toResult_eq_next, serveCompletion_eq_ok]

/-- The target buffer, in one line. -/
theorem tgt_eq (s : State) : tgt s = if s.txState = .idle then s.active else otherSlot s.active := by
  unfold tgt
  cases s.txState <;> rfl

/-- A word of a transmit buffer lies below the silence buffer. -/
theorem slotBase_add_lt {c : Config} {i : Slot} {j : Nat} (h : j < bufWords c) :
    slotBase c i + j < silenceBase c := by
  cases i <;> simp only [slotBase, silenceBase] <;> omega

/-- The start on idle of the publish step. -/
theorem startIfIdle_eq_ok {s t : State} :
    startIfIdle s = .ok t ↔
      (s.txState ≠ .idle ∧ t = s) ∨
      (s.txState = .idle ∧ s.engBusy = false ∧
        t = { s with
          engAddr := BitVec.ofNat 32 (slotBase s.cfg s.wt)
          engCnt := BitVec.ofNat 32 (bufWords s.cfg)
          engBusy := true
          txState := drainOf s.wt }) := by
  unfold startIfIdle arm
  by_cases h : s.txState = .idle <;> cases hb : s.engBusy <;> simp [h, eq_comm (a := t), Except.map]

/-- The publish step: the flag is set, the engine is started if nothing runs, and the WRITE is answered OK. -/
theorem publishStep_eq_next {s t : State} :
    publishStep s = .next t ↔
      (s.txState ≠ .idle ∧ t = respond { setReady s s.wt true with wphase := .none } .p .ok 0#32) ∨
      (s.txState = .idle ∧ s.engBusy = false ∧
        t = respond { setReady s s.wt true with
          wphase := .none
          engAddr := BitVec.ofNat 32 (slotBase s.cfg s.wt)
          engCnt := BitVec.ofNat 32 (bufWords s.cfg)
          engBusy := true
          txState := drainOf s.wt } .p .ok 0#32) := by
  unfold publishStep startIfIdle arm
  by_cases h : s.txState = .idle <;> cases hb : s.engBusy <;> simp [h, hb, eq_comm (a := t), Except.map, toResult]

/-- The fill step: the next word of STAGE goes to the next word of BUF[WT]. -/
theorem fillStep_eq_next {s t : State} :
    fillStep s = .next t ↔ ∃ w, s.stage[s.widx]? = some w ∧ slotBase s.cfg s.wt + s.widx < silenceBase s.cfg ∧
      t = { s with
        buf := writeCell s.buf (slotBase s.cfg s.wt + s.widx) w
        widx := s.widx + 1
        wphase := if s.widx + 1 = bufWords s.cfg then .publish else .fill } := by
  unfold fillStep bufWrite
  cases hw : s.stage[s.widx]? with
  | none => simp
  | some w => by_cases h : slotBase s.cfg s.wt + s.widx < silenceBase s.cfg <;> simp [h, eq_comm (a := t)]

/-- The wait step: it passes when the target buffer's flag is false, and otherwise holds. -/
theorem waitStep_eq_next {s t : State} :
    waitStep s = .next t ↔
      (targetFree s = true ∧ t = { s with wt := tgt s, widx := 0, wphase := .fill }) ∨
      (targetFree s = false ∧ t = s) := by
  unfold waitStep
  cases h : targetFree s <;> simp [eq_comm (a := t)]

/-- After a word has moved. -/
theorem advanceEngine_eq (s : State) :
    advanceEngine s =
      if s.engCnt - 1#32 = 0#32 then
        { s with
          engAddr := s.engAddr + 1#32
          engCnt := s.engCnt - 1#32
          engBusy := false
          irqPend := if s.irqEn then true else s.irqPend }
      else { s with engAddr := s.engAddr + 1#32, engCnt := s.engCnt - 1#32 } := rfl

/-- The engine's word step: the word at ENG_ADDR is pushed and the engine advances. -/
theorem engineWord_eq_next {s t : State} :
    engineWord s = .next t ↔ s.engCnt ≠ 0#32 ∧ ∃ w, bufRead s s.engAddr.toNat = .ok w ∧
      t = advanceEngine (txPush s w) := by
  unfold engineWord
  by_cases h : s.engCnt = 0#32
  · simp [h]
  · cases hr : bufRead s s.engAddr.toNat <;> simp [h, eq_comm (a := t)]

/-- INIT: the four answers of its rule, in priority. -/
theorem execInit_eq_next {s t : State} {r : Nat} :
    execInit r s = .next t ↔
      (s.failed = true ∧ t = respond s .p .errFailed 0#32) ∨
      (s.failed = false ∧ clockCfg s.cfg r = none ∧ t = respond s .p .errRate 0#32) ∨
      (s.failed = false ∧ ∃ cd md, clockCfg s.cfg r = some (cd, md) ∧
        ((s.engineClaimed = true ∧ t = respond (restart s r cd md) .p .ok 0#32) ∨
         (s.engineClaimed = false ∧ s.engineAvailable = true ∧
            t = respond (restart { s with engineClaimed := true } r cd md) .p .ok 0#32) ∨
         (s.engineClaimed = false ∧ s.engineAvailable = false ∧
            t = respond { s with failed := true } .p .errNoEngine 0#32))) := by
  unfold execInit
  cases hf : s.failed
  · cases hc : clockCfg s.cfg r with
    | none => simp [eq_comm (a := t)]
    | some x =>
      obtain ⟨cd, md⟩ := x
      cases he : s.engineClaimed <;> cases ha : s.engineAvailable <;> simp [eq_comm (a := t)]
  · simp [eq_comm (a := t)]

/-- WRITE's accept step: an error answered with nothing else changed, or PROCESS and the wait. -/
theorem execWrite_eq_next {s t : State} {f : Fmt} {ptr cnt : Nat} (h : execWrite f ptr cnt s = .next t) :
    (∃ st, t = respond s .p st 0#32) ∨
    (s.failed = false ∧ s.inited = true ∧ badFormat s f = false ∧ cnt ≤ s.cfg.bufFrames ∧ badAddr f ptr cnt = false ∧
      t = { process s f ptr cnt with wphase := .wait }) := by
  unfold execWrite at h
  cases h1 : s.failed
  · cases h2 : s.inited
    · exact .inl ⟨_, by simpa [h1, h2, eq_comm (a := t)] using h⟩
    · cases h3 : badFormat s f
      · by_cases h4 : s.cfg.bufFrames < cnt
        · exact .inl ⟨_, by simpa [h1, h2, h3, h4, eq_comm (a := t)] using h⟩
        · cases h5 : badAddr f ptr cnt
          · exact .inr ⟨rfl, rfl, rfl, by omega, rfl, by simpa [h1, h2, h3, h4, h5, eq_comm (a := t)] using h⟩
          · exact .inl ⟨_, by simpa [h1, h2, h3, h4, h5, eq_comm (a := t)] using h⟩
      · exact .inl ⟨_, by simpa [h1, h2, h3, eq_comm (a := t)] using h⟩
  · exact .inl ⟨_, by simpa [h1, eq_comm (a := t)] using h⟩

/-- ISRDY changes nothing but the responses on port P. -/
theorem execIsrdy_eq_next {s t : State} (h : execIsrdy s = .next t) : ∃ st v, t = respond s .p st v := by
  unfold execIsrdy at h
  cases h1 : s.failed <;> cases h2 : s.inited <;>
    exact ⟨_, _, by simpa [h1, h2, eq_comm (a := t)] using h⟩

/-- Every command of port C answers a next state. -/
theorem exec_control_next (i : Instr) (hi : i.port = .c) (s : State) : ∃ t, exec i s = .next t := by
  cases i <;> first | exact ⟨_, rfl⟩ | simp [Instr.port] at hi

/-- A command of port C changes at most one mute, one volume and the responses on port C. -/
theorem exec_control_cases {i : Instr} (hi : i.port = .c) {s t : State} (h : exec i s = .next t) :
    (∃ v, t = respond s .c .ok v) ∨ (∃ ch m, t = respond (setMute s ch m) .c .ok 0#32) ∨
    (∃ ch v, t = respond (setVol s ch (clampVol s.cfg v)) .c .ok 0#32) := by
  cases i with
  | init _ => simp [Instr.port] at hi
  | write _ _ _ => simp [Instr.port] at hi
  | isrdy => simp [Instr.port] at hi
  | smute ch m => exact .inr (.inl ⟨ch, m, by simpa [exec, execSmute, eq_comm (a := t)] using h⟩)
  | gmute ch => exact .inl ⟨_, by simpa [exec, execGmute, eq_comm (a := t)] using h⟩
  | svol ch v => exact .inr (.inr ⟨ch, v, by simpa [exec, execSvol, eq_comm (a := t)] using h⟩)
  | gvol ch => exact .inl ⟨_, by simpa [exec, execGvol, eq_comm (a := t)] using h⟩
  | gvrng item => exact .inl ⟨_, by simpa [exec, execGvrng, eq_comm (a := t)] using h⟩
  | grate => exact .inl ⟨_, by simpa [exec, execGrate, eq_comm (a := t)] using h⟩

end Sys2Proof.Machine
end

