-- ==== Sys2Proof/Laws/PerInstr.lean ====
section
/-! SUPPORT. Statements made of every command, one lemma per constructor. -/

namespace Sys2Proof.Laws.MatchMask

/-- The mask of a command's row (30_encoding.md R100). -/
def mask : Instr → DWord
  | .init _ => 0xFFFFFFFF00000000#64
  | .write _ _ _ => 0xFFF8000000000000#64
  | .isrdy => 0xFFFFFFFFFFFFFFFF#64
  | .smute _ _ => 0xFFFCFFFFFFFFFFFE#64
  | .gmute _ => 0xFFFCFFFFFFFFFFFF#64
  | .svol _ _ => 0xFFFCFFFFFFFF0000#64
  | .gvol _ => 0xFFFCFFFFFFFFFFFF#64
  | .gvrng _ => 0xFFFCFFFFFFFFFFFF#64
  | .grate => 0xFFFFFFFFFFFFFFFF#64

/-- The match of a command's row (30_encoding.md R100). -/
def pattern : Instr → DWord
  | .init _ => 0x0100000000000000#64
  | .write _ _ _ => 0x0200000000000000#64
  | .isrdy => 0x0300000000000000#64
  | .smute _ _ => 0x1000000000000000#64
  | .gmute _ => 0x1100000000000000#64
  | .svol _ _ => 0x1200000000000000#64
  | .gvol _ => 0x1300000000000000#64
  | .gvrng _ => 0x1400000000000000#64
  | .grate => 0x1500000000000000#64

/-- The doubleword of a command is a candidate for the command's own row: (d AND mask) = match (30_encoding.md R100). -/
def Statement (i : Instr) : Prop := encode i &&& mask i = pattern i

/-- AND of two doublewords, field by field. -/
theorem packCommand_and (o p : BitVec 8) (e f : BitVec 8) (c d : BitVec 16) (a b : BitVec 32) :
    packCommand o e c a &&& packCommand p f d b = packCommand (o &&& p) (e &&& f) (c &&& d) (a &&& b) := by
  exact BitVec.and_append.trans (by rw [BitVec.and_append, BitVec.and_append]; rfl)

theorem fmtSel_masked (f : Fmt) : fmtSel f &&& 0xF8#8 = 0#8 := by cases f <;> decide

theorem chanSel_masked (ch : Chan) : chanSel ch &&& 0xFC#8 = 0#8 := by cases ch <;> decide

theorem itemSel_masked (it : RangeItem) : itemSel it &&& 0xFC#8 = 0#8 := by cases it <;> decide

theorem volArg_masked (v : BitVec 16) : (0#16 ++ v) &&& 0xFFFF0000#32 = 0#32 := by
  rw [show 0xFFFF0000#32 = 0xFFFF#16 ++ 0#16 by decide, BitVec.and_append]
  simp

theorem init (rate : Nat) : Statement (.init rate) := by
  show packCommand _ _ _ _ &&& packCommand 0xFF#8 0xFF#8 0xFFFF#16 0#32 = _
  rw [packCommand_and, BitVec.and_zero]
  show packCommand _ _ _ _ = 0x0100000000000000#64
  decide

theorem write (fmt : Fmt) (ptr cnt : Nat) : Statement (.write fmt ptr cnt) := by
  show packCommand _ _ _ _ &&& packCommand 0xFF#8 0xF8#8 0#16 0#32 = _
  rw [packCommand_and, BitVec.and_zero, BitVec.and_zero, fmtSel_masked]
  show packCommand _ _ _ _ = 0x0200000000000000#64
  decide

theorem isrdy : Statement .isrdy := by unfold Statement; decide

theorem smute (ch : Chan) (m : Bool) : Statement (.smute ch m) := by
  unfold Statement
  cases ch <;> cases m <;> decide

theorem gmute (ch : Chan) : Statement (.gmute ch) := by
  unfold Statement
  cases ch <;> decide

theorem svol (ch : Chan) (vol : Int) : Statement (.svol ch vol) := by
  show packCommand _ _ _ _ &&& packCommand 0xFF#8 0xFC#8 0xFFFF#16 0xFFFF0000#32 = _
  rw [packCommand_and, chanSel_masked, volArg_masked]
  show packCommand _ _ _ _ = 0x1200000000000000#64
  decide

theorem gvol (ch : Chan) : Statement (.gvol ch) := by
  unfold Statement
  cases ch <;> decide

theorem gvrng (item : RangeItem) : Statement (.gvrng item) := by
  unfold Statement
  cases item <;> decide

theorem grate : Statement .grate := by unfold Statement; decide

end Sys2Proof.Laws.MatchMask
end

