-- ==== Sys2Proof/Laws/Step.lean ====
section
/-! SUPPORT. What one step can do, said once: `Move` lists every change a step can make, and `step_move` says that each
step is one of them. An invariant is then one case analysis over `Move`. -/

namespace Sys2Proof.Machine

theorem requireZero_eq_ok {z : Bool} {x i : Instr} : requireZero z x = .ok i ↔ z = true ∧ i = x := by
  unfold requireZero
  cases z <;> simp [eq_comm (a := i)]

theorem withChan_eq_ok {sel : BitVec 8} {k : Chan → Except Illegal Instr} {i : Instr} :
    withChan sel k = .ok i ↔ ∃ ch, chanOfSel sel = some ch ∧ k ch = .ok i := by
  unfold withChan
  cases chanOfSel sel <;> simp

theorem decodeFields_port {op : Opcode} {sel : BitVec 8} {cnt : BitVec 16} {arg : BitVec 32} {i : Instr}
    (h : decodeFields op sel cnt arg = .ok i) : i.port = opcodePort op := by
  cases op with
  | init => rw [(requireZero_eq_ok.mp h).2]; rfl
  | isrdy => rw [(requireZero_eq_ok.mp h).2]; rfl
  | grate => rw [(requireZero_eq_ok.mp h).2]; rfl
  | write =>
    simp only [decodeFields] at h
    split at h
    · rw [← Except.ok.inj h]; rfl
    · simp at h
  | gvrng =>
    simp only [decodeFields] at h
    split at h
    · rw [(requireZero_eq_ok.mp h).2]; rfl
    · simp at h
  | smute => obtain ⟨ch, -, h⟩ := withChan_eq_ok.mp h; rw [(requireZero_eq_ok.mp h).2]; rfl
  | gmute => obtain ⟨ch, -, h⟩ := withChan_eq_ok.mp h; rw [(requireZero_eq_ok.mp h).2]; rfl
  | svol => obtain ⟨ch, -, h⟩ := withChan_eq_ok.mp h; rw [(requireZero_eq_ok.mp h).2]; rfl
  | gvol => obtain ⟨ch, -, h⟩ := withChan_eq_ok.mp h; rw [(requireZero_eq_ok.mp h).2]; rfl

/-- A doubleword that is legal on a port is a command of that port. -/
theorem decode_port {port : Port} {cw : DWord} {i : Instr} (h : decode port cw = .ok i) : i.port = port := by
  unfold decode at h
  split at h
  · simp at h
  · split at h
    · rename_i hp
      rw [decodeFields_port h, hp]
    · simp at h

/-- Every change a turn can make to the state in which it is taken. -/
inductive Move (s : State) : Turn → State → Prop where
  /-- No step is enabled: nothing changes. -/
  | stay (u : Turn) : Move s u s
  | reset : Move s .reset (hardwareReset s)
  | store (a : BitVec 32) (v : Byte) : Move s (.store a v) { s with src := writeCell s.src a.toNat v }
  | available (yes : Bool) : Move s (.available yes) { s with engineAvailable := yes }
  /-- A doubleword on port P answered with nothing else changed: an error, an illegal one, or ISRDY. -/
  | answerP (rest : List DWord) (st : Status) (v : Word) (hp : s.wphase = .none) (cw : DWord)
      (hq : s.portP = cw :: rest) :
      Move s (.agent .producer) (respond { s with portP := rest } .p st v)
  /-- INIT that finds no engine. -/
  | initNoEngine (rest : List DWord) (hp : s.wphase = .none) (hf : s.failed = false) (hc : s.engineClaimed = false)
      (r : Nat) (cw : DWord) (hq : s.portP = cw :: rest) (hd : decode .p cw = .ok (.init r)) :
      Move s (.agent .producer) (respond { s with portP := rest, failed := true } .p .errNoEngine 0#32)
  /-- INIT answered OK. -/
  | initOk (rest : List DWord) (r : Nat) (cd md : Divider) (hp : s.wphase = .none) (hf : s.failed = false)
      (hclk : clockCfg s.cfg r = some (cd, md)) (cw : DWord) (hq : s.portP = cw :: rest)
      (hd : decode .p cw = .ok (.init r)) :
      Move s (.agent .producer) (respond (restart { s with portP := rest, engineClaimed := true } r cd md) .p .ok 0#32)
  /-- WRITE accepted. -/
  | writeAccepted (rest : List DWord) (f : Fmt) (ptr cnt : Nat) (hp : s.wphase = .none) (hf : s.failed = false)
      (hi : s.inited = true) (hfmt : badFormat s f = false) (hcnt : cnt ≤ s.cfg.bufFrames)
      (haddr : badAddr f ptr cnt = false) (cw : DWord) (hq : s.portP = cw :: rest)
      (hd : decode .p cw = .ok (.write f ptr cnt)) :
      Move s (.agent .producer) { process { s with portP := rest } f ptr cnt with wphase := .wait }
  | waited (hp : s.wphase = .wait) (hfree : targetFree s = true) :
      Move s (.agent .producer) { s with wt := tgt s, widx := 0, wphase := .fill }
  | filled (w : Word) (hp : s.wphase = .fill) (hw : s.stage[s.widx]? = some w)
      (ha : slotBase s.cfg s.wt + s.widx < silenceBase s.cfg) :
      Move s (.agent .producer) { s with
        buf := writeCell s.buf (slotBase s.cfg s.wt + s.widx) w
        widx := s.widx + 1
        wphase := if s.widx + 1 = bufWords s.cfg then .publish else .fill }
  | publishedRunning (hp : s.wphase = .publish) (hx : s.txState ≠ .idle) :
      Move s (.agent .producer) (respond { setReady s s.wt true with wphase := .none } .p .ok 0#32)
  | publishedIdle (hp : s.wphase = .publish) (hx : s.txState = .idle) (hb : s.engBusy = false) :
      Move s (.agent .producer) (respond { setReady s s.wt true with
        wphase := .none
        engAddr := BitVec.ofNat 32 (slotBase s.cfg s.wt)
        engCnt := BitVec.ofNat 32 (bufWords s.cfg)
        engBusy := true
        txState := drainOf s.wt } .p .ok 0#32)
  /-- A doubleword on port C answered with nothing else changed. -/
  | answerC (rest : List DWord) (st : Status) (v : Word) :
      Move s (.agent .control) (respond { s with portC := rest } .c st v)
  | muted (rest : List DWord) (ch : Chan) (m : Bool) :
      Move s (.agent .control) (respond (setMute { s with portC := rest } ch m) .c .ok 0#32)
  | volumeSet (rest : List DWord) (ch : Chan) (v : Int) :
      Move s (.agent .control) (respond (setVol { s with portC := rest } ch (clampVol s.cfg v)) .c .ok 0#32)
  | wordMoved (w : Word) (hb : s.engBusy = true) (hs : s.smEn = true) (hc : s.engCnt ≠ 0#32)
      (hr : bufRead s s.engAddr.toNat = .ok w) : Move s (.agent .engine) (advanceEngine (txPush s w))
  | completedIdle (hq : s.irqPend = true) (he : s.irqEn = true) (hx : s.txState = .idle) :
      Move s (.agent .handler) { s with irqPend := false }
  | completed (t : State) (hq : s.irqPend = true) (he : s.irqEn = true) (hx : s.txState ≠ .idle)
      (hr : rearm (clearDrained { s with irqPend := false }) = .ok t) : Move s (.agent .handler) t

theorem acceptWord_cases {port : Port} {cw : DWord} {s t : State} (h : acceptWord port cw s = .next t) :
    (∃ i, decode port cw = .ok i ∧ exec i s = .next t) ∨ t = respond s port .errIllegal 0#32 := by
  unfold acceptWord at h
  split at h
  · rename_i i hi
    exact .inl ⟨i, hi, h⟩
  · exact .inr (next_eq_next.mp h)

theorem acceptP_move {s t : State} (hp : s.wphase = .none) (h : acceptP s = .next t) : Move s (.agent .producer) t := by
  unfold acceptP at h
  split at h
  · rw [next_eq_next.mp h]
    exact .stay _
  · rename_i cw rest hq
    obtain ⟨i, hd, hx⟩ | rfl := acceptWord_cases h
    · have hport := decode_port hd
      cases i with
      | init r =>
        obtain ⟨-, rfl⟩ | ⟨-, -, rfl⟩ | ⟨hf, cd, md, hclk, hx⟩ := execInit_eq_next.mp hx
        · exact .answerP rest _ _ hp cw hq
        · exact .answerP rest _ _ hp cw hq
        · obtain ⟨hc, rfl⟩ | ⟨-, -, rfl⟩ | ⟨hc, -, rfl⟩ := hx
          · have : { s with portP := rest } = { s with portP := rest, engineClaimed := true } := by
              cases s
              simp_all
            rw [this]
            exact .initOk rest r cd md hp hf hclk cw hq hd
          · exact .initOk rest r cd md hp hf hclk cw hq hd
          · exact .initNoEngine rest hp hf hc r cw hq hd
      | write f ptr cnt =>
        obtain ⟨st, rfl⟩ | ⟨hf, hi, hfmt, hcnt, haddr, rfl⟩ := execWrite_eq_next hx
        · exact .answerP rest _ _ hp cw hq
        · exact .writeAccepted rest f ptr cnt hp hf hi hfmt hcnt haddr cw hq hd
      | isrdy =>
        obtain ⟨st, v, rfl⟩ := execIsrdy_eq_next hx
        exact .answerP rest _ _ hp cw hq
      | smute _ _ => simp [Instr.port] at hport
      | gmute _ => simp [Instr.port] at hport
      | svol _ _ => simp [Instr.port] at hport
      | gvol _ => simp [Instr.port] at hport
      | gvrng _ => simp [Instr.port] at hport
      | grate => simp [Instr.port] at hport
    · exact .answerP rest _ _ hp cw hq

theorem producerTurn_move {s t : State} (h : producerTurn s = .next t) : Move s (.agent .producer) t := by
  unfold producerTurn at h
  split at h
  · rename_i hp
    exact acceptP_move hp h
  · rename_i hp
    obtain ⟨hf, rfl⟩ | ⟨-, rfl⟩ := waitStep_eq_next.mp h
    · exact .waited hp hf
    · exact .stay _
  · rename_i hp
    obtain ⟨w, hw, ha, rfl⟩ := fillStep_eq_next.mp h
    exact .filled w hp hw ha
  · rename_i hp
    obtain ⟨hx, rfl⟩ | ⟨hx, hb, rfl⟩ := publishStep_eq_next.mp h
    · exact .publishedRunning hp hx
    · exact .publishedIdle hp hx hb

theorem controlTurn_move {s t : State} (h : controlTurn s = .next t) : Move s (.agent .control) t := by
  unfold controlTurn at h
  split at h
  · rw [next_eq_next.mp h]
    exact .stay _
  · rename_i cw rest hq
    obtain ⟨i, hd, hx⟩ | rfl := acceptWord_cases h
    · obtain ⟨v, rfl⟩ | ⟨ch, m, rfl⟩ | ⟨ch, v, rfl⟩ := exec_control_cases (decode_port hd) hx
      · exact .answerC rest _ _
      · exact .muted rest ch m
      · exact .volumeSet rest ch v
    · exact .answerC rest _ _

theorem engineTurn_move {s t : State} (h : engineTurn s = .next t) : Move s (.agent .engine) t := by
  unfold engineTurn at h
  split at h
  · rename_i he
    simp only [engineEnabled, Bool.and_eq_true] at he
    obtain ⟨hc, w, hr, rfl⟩ := engineWord_eq_next.mp h
    exact .wordMoved w he.1 he.2 hc hr
  · rw [next_eq_next.mp h]
    exact .stay _

theorem handlerTurn_move {s t : State} (h : handlerTurn s = .next t) : Move s (.agent .handler) t := by
  unfold handlerTurn at h
  split at h
  · rename_i he
    simp only [handlerEnabled, Bool.and_eq_true] at he
    obtain ⟨hx, rfl⟩ | ⟨hx, hr⟩ := serveCompletion_eq_ok.mp (toResult_eq_next.mp h)
    · exact .completedIdle he.1 he.2 hx
    · exact .completed t he.1 he.2 hx hr
  · rw [next_eq_next.mp h]
    exact .stay _

/-- A turn that gives a next state makes one of the moves. -/
theorem takeTurn_move {u : Turn} {s t : State} (h : takeTurn u s = .next t) : Move s u t := by
  unfold takeTurn at h
  split at h
  · rename_i a
    cases a with
    | producer => exact producerTurn_move h
    | control => exact controlTurn_move h
    | engine => exact engineTurn_move h
    | handler => exact handlerTurn_move h
  · rw [next_eq_next.mp h]
    exact .reset
  · rw [next_eq_next.mp h]
    exact .store _ _
  · rw [next_eq_next.mp h]
    exact .available _

/-- A step that gives a next state makes one of the moves, from the state in which its turn starts. -/
theorem step_move {s t : State} (h : step s = .next t) : Move (startTurn s) (nextTurn s) t := takeTurn_move h

/-- The next turn is the first one scheduled. -/
theorem nextTurn_of_turns {s : State} {u : Turn} {rest : List Turn} (h : s.turns = u :: rest) : nextTurn s = u := by
  simp [nextTurn, h]

end Sys2Proof.Machine
end

