-- ==== Sys2Proof/Tests/Slice0.lean ====
section
/-! SUPPORT. Tests: the decoder on written-out doublewords, one step of each command and agent against the values
computed in the spec, and for each statement with hypotheses a state that meets them. -/

namespace Sys2Proof.Tests

-- One theorem at a time: a kernel evaluation waits for the declarations before it, and each one waiting holds a thread
-- and its stack.
set_option Elab.async false

open Sys2Proof Sys2Proof.Machine

/-! ### Well-formedness: each check refuses an ill-formed command -/

theorem test_wf_refuses_rate : (Instr.init (2 ^ 32)).wf = false := by decide

theorem test_wf_refuses_ptr : (Instr.write .m16 (2 ^ 32) 0).wf = false := by decide

theorem test_wf_refuses_cnt : (Instr.write .m16 0 65536).wf = false := by decide

theorem test_wf_refuses_volume : (Instr.svol .ch0 32768).wf = false ∧ (Instr.svol .ch0 (-32769)).wf = false := by
  decide

theorem test_wf_accepts_bounds :
    (Instr.init (2 ^ 32 - 1)).wf = true ∧ (Instr.write .s24l (2 ^ 32 - 1) 65535).wf = true ∧
    (Instr.svol .master (-32768)).wf = true ∧ (Instr.svol .master 32767).wf = true := by decide

/-! ### Decoding: the words of 30_encoding.md R101 and 95_test_vectors.md V-E1, V-E2, V-E3 -/

theorem test_decode_init :
    decode .p 0x010000000000BB80#64 = .ok (.init 48000) ∧ decode .p 0x010000000000AC44#64 = .ok (.init 44100) := by
  decide

theorem test_decode_write :
    decode .p 0x0200000400001000#64 = .ok (.write .m16 0x1000 4) ∧
    decode .p 0x0201000400002000#64 = .ok (.write .s16 0x2000 4) ∧
    decode .p 0x0207000300004000#64 = .ok (.write .s24l 0x4000 3) ∧
    decode .p 0x0207FFFF12345678#64 = .ok (.write .s24l 0x12345678 65535) ∧
    decode .p 0x0200000000000000#64 = .ok (.write .m16 0 0) := by decide

/-- The three other formats, from SEL = 2, 3, 6 (R95). -/
theorem test_decode_write_formats :
    decode .p 0x0202000100000000#64 = .ok (.write .m24r 0 1) ∧
    decode .p 0x0203000100000000#64 = .ok (.write .s24r 0 1) ∧
    decode .p 0x0206000100000000#64 = .ok (.write .m24l 0 1) := by decide

theorem test_decode_isrdy : decode .p 0x0300000000000000#64 = .ok .isrdy := by decide

theorem test_decode_smute :
    decode .c 0x1001000000000001#64 = .ok (.smute .ch1 true) ∧
    decode .c 0x1002000000000000#64 = .ok (.smute .master false) := by decide

theorem test_decode_gmute : decode .c 0x1101000000000000#64 = .ok (.gmute .ch1) := by decide

theorem test_decode_svol :
    decode .c 0x120200000000EC00#64 = .ok (.svol .master (-5120)) ∧
    decode .c 0x1200000000000100#64 = .ok (.svol .ch0 256) ∧
    decode .c 0x1200000000008000#64 = .ok (.svol .ch0 (-32768)) := by decide

theorem test_decode_gvol : decode .c 0x1302000000000000#64 = .ok (.gvol .master) := by decide

/-- The first word is V-E1's; ITEM = 1 and 2 are R95's. -/
theorem test_decode_gvrng :
    decode .c 0x1400000000000000#64 = .ok (.gvrng .min) ∧ decode .c 0x1401000000000000#64 = .ok (.gvrng .max) ∧
    decode .c 0x1402000000000000#64 = .ok (.gvrng .res) := by decide

theorem test_decode_grate : decode .c 0x1500000000000000#64 = .ok .grate := by decide

/-- V-E2, the doublewords of port P. -/
theorem test_illegal_on_port_p :
    decode .p 0x1001000000000001#64 = .error .wrongPort ∧ decode .p 0x0204000100000000#64 = .error .badFormat ∧
    decode .p 0x0208000100000000#64 = .error .badFormat ∧ decode .p 0x0100000100000000#64 = .error .nonzeroField ∧
    decode .p 0x0300000000000001#64 = .error .nonzeroField ∧
    decode .p 0xFF00000000000000#64 = .error .unknownOpcode ∧ decode .p 0x0000000000000000#64 = .error .unknownOpcode := by
  decide

/-- V-E2, the doublewords of port C. -/
theorem test_illegal_on_port_c :
    decode .c 0x0300000000000000#64 = .error .wrongPort ∧ decode .c 0x1003000000000001#64 = .error .badSelector ∧
    decode .c 0x1200000000010000#64 = .error .nonzeroField ∧ decode .c 0x1000000000000002#64 = .error .nonzeroField ∧
    decode .c 0x1403000000000000#64 = .error .badSelector ∧
    decode .c 0xFF00000000000000#64 = .error .unknownOpcode ∧ decode .c 0x0000000000000000#64 = .error .unknownOpcode := by
  decide

/-- The host's numbering: the table word is the doubleword itself. -/
theorem test_table_word :
    decodeTableWord 64 0x1001000000000001 = some (.smute .ch1 true) ∧
    decodeTableWord 64 0x0200000400001000 = some (.write .m16 0x1000 4) ∧ decodeTableWord 64 0 = none := by decide

/-! ### States the tests start from -/

/-- The outcome's state, if it is a next state. -/
def after : Result → Option State
  | .next t => some t
  | .fault _ => none
  | .refused _ => none

/-- The state after an INIT answered OK, with no rate set. -/
def started (c : Config) : State :=
  { State.powerOn c with engineClaimed := true, irqEn := true, smEn := true, inited := true }

/-- `n` buffer words of one value, from word 0. -/
def words (n : Nat) : Memory 32 := (List.range n).map fun a => (a, 0x11111111#32)

def block : List Word := [0x11111111#32, 0x22222222#32, 0x33333333#32, 0x44444444#32]

/-- A WRITE accepted, nothing running. -/
def waiting : State := { started .refA with wphase := .wait, stage := block }

/-- DRAIN_A, four words to move. -/
def draining : State :=
  { started .refA with txState := .drainA, ready0 := true, buf := words 4, engBusy := true, engCnt := 4#32 }

/-- A WRITE accepted while DRAIN_A runs. -/
def waitingBehind : State := { draining with wphase := .wait, stage := block }

/-- The first fill step is next. -/
def filling : State := { started .refA with wphase := .fill, stage := block }

/-- The last fill step is next, while DRAIN_A runs. -/
def fillingBehind : State := { draining with wphase := .fill, stage := block, wt := .b, widx := 3, buf := words 7 }

/-- The publish step is next, nothing running. -/
def publishing : State := { started .refA with wphase := .publish, stage := block, widx := 4, buf := words 4 }

/-- The publish step is next, while DRAIN_A runs. -/
def publishingBehind : State :=
  { draining with wphase := .publish, stage := block, wt := .b, widx := 4, buf := words 8 }

/-- DRAIN_A has completed; only BUF[0] was ready. -/
def completedOne : State :=
  { started .refA with txState := .drainA, ready0 := true, buf := words 4, engAddr := 4#32, irqPend := true }

/-- DRAIN_A has completed; both buffers are ready. -/
def completedTwo : State := { completedOne with ready1 := true, buf := words 8 }

/-- DRAIN_B has completed; both buffers are ready. -/
def completedB : State := { completedTwo with active := .b, txState := .drainB, engAddr := 8#32 }

/-- SRC holding the given bytes from address 0x1000. -/
def source (bytes : List Byte) : Memory 8 := bytes.mapIdx fun i b => (0x1000 + i, b)

/-! ### Safe states: a check, and that it is enough -/

def below {w : Nat} (m : Memory w) (n : Nat) : Bool := m.all fun x => decide (x.1 < n)

theorem readCell_below {w : Nat} {m : Memory w} {n a : Nat} {v : BitVec w} (h : below m n = true)
    (hr : readCell m a = some v) : a < n := by
  induction m with
  | nil => simp [readCell] at hr
  | cons x rest ih =>
    obtain ⟨k, u⟩ := x
    simp only [below, List.all_cons, Bool.and_eq_true, decide_eq_true_eq] at h
    unfold readCell at hr
    split at hr
    · rename_i hk
      exact hk ▸ h.1
    · exact ih h.2 hr

def slotCheck (s : State) (i : Slot) : Bool :=
  decide (∀ j, j < bufWords s.cfg → (readCell s.buf (slotBase s.cfg i + j)).isSome = true)

def flagsCheck (s : State) : Bool :=
  decide ((s.wphase = .fill ∨ s.wphase = .publish) → getReady s s.wt = false) &&
  decide (s.txState = .drainA → s.active = .a ∧ s.ready0 = true) &&
  decide (s.txState = .drainB → s.active = .b ∧ s.ready1 = true) &&
  decide (s.txState = .idle → s.ready0 = false ∧ s.ready1 = false ∧ s.engBusy = false ∧ s.irqPend = false) &&
  decide (s.txState = .idle → (s.wphase = .fill ∨ s.wphase = .publish) → s.wt = s.active) &&
  decide (s.txState ≠ .idle → (s.wphase = .fill ∨ s.wphase = .publish) → s.wt = otherSlot s.active) &&
  decide (s.txState = .drainSilence → getReady s s.active = false)

def engineCheck (s : State) : Bool :=
  decide (s.engCnt.toNat ≤ bufWords s.cfg) &&
  decide (s.engBusy = true → s.engAddr.toNat + s.engCnt.toNat = transferBase s + bufWords s.cfg) &&
  decide (s.engBusy = true → 1 ≤ s.engCnt.toNat) && decide (s.irqPend = true → s.engBusy = false) &&
  decide (s.ready0 = true → slotCheck s .a = true) && decide (s.ready1 = true → slotCheck s .b = true) &&
  decide (s.txState ≠ .idle → s.engBusy = true ∨ s.irqPend = true)

def writeCheck (s : State) : Bool :=
  decide ((s.wphase = .wait ∨ s.wphase = .fill) → s.stage.length = bufWords s.cfg) &&
  decide (s.wphase = .fill → s.widx < bufWords s.cfg) &&
  decide (s.wphase = .fill → ∀ j, j < s.widx → (readCell s.buf (slotBase s.cfg s.wt + j)).isSome = true) &&
  decide (s.wphase = .publish → slotCheck s s.wt = true)

def lifecycleCheck (s : State) : Bool :=
  decide (s.inited = false → s.txState = .idle ∧ s.wphase = .none) &&
  decide (s.inited = true → s.irqEn = true ∧ s.smEn = true ∧ s.engineClaimed = true) &&
  decide (s.failed = true → s.inited = false ∧ s.engineClaimed = false)

def rangesCheck (s : State) : Bool :=
  [Chan.ch0, .ch1, .master].all (fun ch => decide (s.cfg.volMin ≤ getVol s ch ∧ getVol s ch ≤ s.cfg.volMax)) &&
  [Side.left, .right].all (fun c => decide (0 ≤ getGainCur s c ∧ 0 ≤ getGainTgt s c)) &&
  decide (s.cfg.hasMclk = false → s.mclkDiv = 0#24)

def safeCheck (s : State) : Bool :=
  s.cfg.valid && (Memory.wf s.buf && below s.buf (silenceBase s.cfg) && Memory.wf s.src && below s.src (2 ^ 32)) &&
  flagsCheck s && engineCheck s && writeCheck s && lifecycleCheck s && rangesCheck s

theorem safe_of_check {s : State} (h : safeCheck s = true) : SafeState s := by
  simp only [safeCheck, flagsCheck, engineCheck, writeCheck, lifecycleCheck, rangesCheck, slotCheck, List.all_cons,
    List.all_nil, Bool.and_eq_true, decide_eq_true_eq, and_true] at h
  obtain ⟨⟨⟨⟨⟨⟨hc, ⟨⟨m1, m2⟩, m3⟩, m4⟩, hf⟩, he⟩, hw⟩, hl⟩, ⟨hv, hg⟩, hm⟩ := h
  obtain ⟨⟨⟨⟨⟨⟨f1, f2⟩, f3⟩, f4⟩, f5⟩, f6⟩, f7⟩ := hf
  obtain ⟨⟨⟨⟨⟨⟨e1, e2⟩, e3⟩, e4⟩, e5⟩, e6⟩, e7⟩ := he
  refine ⟨hc, ⟨m1, fun _ _ hr => readCell_below m2 hr, m3, fun _ _ hr => readCell_below m4 hr⟩,
    ⟨f1, f2, f3, f4, f5, f6, f7⟩, ⟨e1, e2, e3, e4, ?_, e7⟩, ⟨hw.1.1.1, hw.1.1.2, hw.1.2, hw.2⟩,
    ⟨hl.1.1, hl.1.2, hl.2⟩, ?_, ?_, hm⟩
  · intro i
    cases i
    · exact e5
    · exact e6
  · intro ch
    cases ch
    · exact hv.1
    · exact hv.2.1
    · exact hv.2.2
  · intro c
    cases c
    · exact hg.1
    · exact hg.2

theorem test_safe_waiting : SafeState waiting := safe_of_check (by decide +kernel)
theorem test_safe_draining : SafeState draining := safe_of_check (by decide +kernel)
theorem test_safe_waitingBehind : SafeState waitingBehind := safe_of_check (by decide +kernel)
theorem test_safe_filling : SafeState filling := safe_of_check (by decide +kernel)
theorem test_safe_fillingBehind : SafeState fillingBehind := safe_of_check (by decide +kernel)
theorem test_safe_publishing : SafeState publishing := safe_of_check (by decide +kernel)
theorem test_safe_publishingBehind : SafeState publishingBehind := safe_of_check (by decide +kernel)
theorem test_safe_completedOne : SafeState completedOne := safe_of_check (by decide +kernel)
theorem test_safe_completedTwo : SafeState completedTwo := safe_of_check (by decide +kernel)
theorem test_safe_completedB : SafeState completedB := safe_of_check (by decide +kernel)

theorem test_reset_memory_wf : Memory.wf State.reset.buf = true ∧ Memory.wf State.reset.src = true := by decide

/-! ### One step, against the values computed in 95_test_vectors.md -/

/-- V-C1: INIT 48000 in REF-A. -/
theorem test_init_divider :
    (after (exec (.init 48000) State.reset)).map (fun t => (t.clkDiv, t.mclkDiv, t.inited, t.rate, t.respP)) =
      some (0x0028B0#24, 0x000000#24, true, 48000#32, [0x0000000000000000#64]) := by decide +kernel

/-- V-C1: 1953125 is accepted, 1953126 is ERR_RATE. -/
theorem test_init_rate_bound :
    (after (exec (.init 1953125) State.reset)).map (fun t => (t.clkDiv, t.respP)) = some (0x000100#24, [0#64]) ∧
    (after (exec (.init 1953126) State.reset)).map (fun t => (t.inited, t.respP)) =
      some (false, [0x0500000000000000#64]) := by decide +kernel

/-- V-C1: the master divider of a 256-fold master clock. -/
theorem test_clock_master :
    clockCfg { Config.refA with hasMclk := true } 44100 = some (0x002C49#24, 0x000B12#24) := by decide +kernel

/-- V-G5: left muted, a ramp to 0 with truncation; right at gain 1. -/
theorem test_write_packed :
    (after (exec (.write .s16 0x1000 4)
      { started .refA with
        mute0 := true
        src := source [0x01, 0x00, 0xFF, 0xFF, 0x03, 0x00, 0xFD, 0xFF, 0x64, 0x00, 0x9C, 0xFF, 0x07, 0x00, 0xF9, 0xFF] })).map
      (fun t => (t.stage, t.gainCur0, t.gainCur1, t.wphase)) =
      some ([0x0001FFFF#32, 0x0002FFFD#32, 0x0032FF9C#32, 0x0001FFF9#32], 0, 1, .wait) := by decide +kernel

/-- V-G12: M16 into LJ24 with channel 1 ramping to 0; truncation goes toward zero. -/
theorem test_write_lj24 :
    (after (exec (.write .m16 0x1000 4)
      { started .refB with mute1 := true, src := source [0xFF, 0x7F, 0x00, 0x80, 0x01, 0x00, 0xFF, 0xFF] })).map (·.stage) =
      some [0x7FFF0000#32, 0x7FFF0000#32, 0x80000000#32, 0xA0000000#32, 0x00010000#32, 0x00000000#32, 0xFFFF0000#32,
        0x00000000#32] := by decide +kernel

/-- V-F4, V-F5: the spare bits of a 24-bit container are ignored. -/
theorem test_sample_24 :
    sample { State.reset with src := source [0xFF, 0x56, 0x34, 0x12] } .m24l 0x1000 0 .right = 0x123456 ∧
    sample { State.reset with src := source [0x56, 0x34, 0x12, 0xAA] } .m24r 0x1000 0 .left = 0x123456 ∧
    sample { State.reset with src := source [0x00, 0x00, 0x00, 0x00, 0xFF, 0xFF, 0xFF, 0x00] } .s24r 0x1000 0 .right =
      -1 := by decide +kernel

/-- V-G8. -/
theorem test_apply_clamps :
    applyGain 20000 2 16 = 32767 ∧ applyGain (-20000) 2 16 = -32768 ∧ applyGain 16384 2 16 = 32767 ∧
    applyGain (-16384) 2 16 = -32768 ∧ applyGain 8388607 (3 / 2) 24 = 8388607 ∧ applyGain (-3) (3 / 4) 16 = -2 := by
  decide +kernel

/-- V-D2: one WRITE published, then two with no completion. -/
theorem test_isrdy :
    (after (exec .isrdy draining)).map (·.respP) = some [1#64] ∧
    (after (exec .isrdy { draining with ready1 := true })).map (·.respP) = some [0#64] := by decide +kernel

/-- V-D2: before INIT, and after FAILED. -/
theorem test_isrdy_errors :
    (after (exec .isrdy State.reset)).map (·.respP) = some [0x0400000000000000#64] ∧
    (after (exec .isrdy { State.reset with failed := true })).map (·.respP) = some [0x0300000000000000#64] := by
  decide +kernel

/-- R192. -/
theorem test_smute :
    (after (exec (.smute .ch1 true) State.reset)).map (fun t => (t.mute0, t.mute1, t.mute2, t.respC)) =
      some (false, true, false, [0#64]) := by decide +kernel

/-- R193: the register, not the effective mute. -/
theorem test_gmute :
    (after (exec (.gmute .ch0) { State.reset with mute2 := true })).map (·.respC) = some [0#64] ∧
    (after (exec (.gmute .master) { State.reset with mute2 := true })).map (·.respC) = some [1#64] := by decide +kernel

/-- V-G10. -/
theorem test_svol :
    (after (exec (.svol .ch0 256) { State.reset with vol0 := 5#16 })).map (fun t => (t.vol0, t.respC)) =
      some (0#16, [0#64]) ∧
    (after (exec (.svol .ch0 (-32768)) (State.powerOn { Config.refA with volMin := -25600 }))).map (·.vol0) =
      some 0x9C00#16 := by decide +kernel

/-- V-G10. -/
theorem test_gvol :
    (after (exec (.gvol .ch0) { State.reset with vol0 := 0x8000#16 })).map (·.respC) =
      some [0x0000000000008000#64] := by decide +kernel

/-- R196, with the volume range of REF-A. -/
theorem test_gvrng :
    (after (exec (.gvrng .min) State.reset)).map (·.respC) = some [0x0000000000008000#64] ∧
    (after (exec (.gvrng .res) State.reset)).map (·.respC) = some [0x0000000000000001#64] := by decide +kernel

/-- V-C2. -/
theorem test_grate : (after (exec .grate State.reset)).map (·.respC) = some [0x000000000000BB80#64] := by decide +kernel

/-- R157: the first word of a transfer. -/
theorem test_engine_word :
    (after (step { draining with turns := [.agent .engine] })).map (fun t => (t.txOut, t.engAddr, t.engCnt, t.engBusy)) =
      some ([0x11111111#32], 1#32, 3#32, true) := by decide +kernel

/-- V-D3, first row: READY T, T. -/
theorem test_handler_switches :
    (after (step { completedTwo with turns := [.agent .handler] })).map
      (fun t => ((t.active, t.txState, t.ready0, t.ready1), t.engAddr, t.engCnt, t.irqPend, t.engBusy)) =
      some ((.b, .drainB, false, true), 4#32, 4#32, false, true) := by decide +kernel

/-- V-D3, second row: READY T, F. -/
theorem test_handler_underrun :
    (after (step { completedOne with turns := [.agent .handler] })).map
      (fun t => (t.active, t.txState, t.ready0, t.ready1, t.engAddr, t.engCnt)) =
      some (.a, .drainSilence, false, false, 8#32, 4#32) := by decide +kernel

/-- R120's example: the publish step of the first WRITE. -/
theorem test_publish_starts :
    (after (step { publishing with turns := [.agent .producer] })).map
      (fun t => ((t.ready0, t.txState, t.engBusy), t.engAddr, t.engCnt, t.respP)) =
      some ((true, .drainA, true), 0#32, 4#32, [0#64]) := by decide +kernel

/-- 10_state.md R28, 20_memory.md R64: the silence buffer reads zero; a word never written has no value. -/
theorem test_buffer_reads :
    (bufRead State.reset 8).toOption = some 0#32 ∧ (bufRead State.reset 11).toOption = some 0#32 ∧
    (bufRead State.reset 0).toOption = none ∧ (bufRead State.reset 12).toOption = none := by decide +kernel

/-! ### For each statement with hypotheses, a state and operands that meet them -/

theorem test_meets_DecodeEncodeRoundTrip : (Instr.write .s24l (2 ^ 32 - 1) 65535).wf = true := by decide

theorem test_meets_EncodeDecodeRoundTrip : decode .c 0x1200000000008000#64 = .ok (.svol .ch0 (-32768)) := by decide

/-- Legal words at the bounds of each field that has a bound. -/
theorem test_meets_LegalDoublewordsAreTheTable :
    legalCommand .p 0x01000000FFFFFFFF#64 ∧ legalCommand .p 0x0207FFFFFFFFFFFF#64 ∧
    legalCommand .p 0x0300000000000000#64 ∧ legalCommand .c 0x1002000000000001#64 ∧
    legalCommand .c 0x120200000000FFFF#64 ∧ legalCommand .c 0x1402000000000000#64 ∧
    ¬ legalCommand .p 0x0204000000000000#64 ∧ ¬ legalCommand .c 0x1203000000000000#64 ∧
    ¬ legalCommand .c 0x1200000000010000#64 ∧ ¬ legalCommand .c 0x1000000000000002#64 := by
  refine ⟨?_, ?_, ?_, ?_, ?_, ?_, ?_, ?_, ?_, ?_⟩ <;> (simp only [legalCommand]; decide +kernel)

/-- A state whose next turn is the agent's, with one doubleword presented. -/
def presented (s : State) (a : Agent) (cw : DWord) : State :=
  { s with turns := [.agent a], portP := [cw], portC := [cw] }

theorem test_meets_IllegalDoublewordIsAnswered :
    ((presented State.reset .producer 0#64).turns = [.agent .producer] ∧
      (presented State.reset .producer 0#64).wphase = .none ∧
      (presented State.reset .producer 0#64).portP = [0#64] ∧ ¬ legalCommand .p 0#64) ∧
    ((presented waiting .control 0x1403000000000000#64).turns = [.agent .control] ∧
      (presented waiting .control 0x1403000000000000#64).portC = [0x1403000000000000#64] ∧
      ¬ legalCommand .c 0x1403000000000000#64) := by
  simp only [legalCommand]
  decide +kernel

theorem test_meets_StepRunsAcceptedCommand :
    ((presented State.reset .producer 0x010000000000BB80#64).turns = [.agent .producer] ∧
      (presented State.reset .producer 0x010000000000BB80#64).wphase = .none ∧
      (presented State.reset .producer 0x010000000000BB80#64).portP = [0x010000000000BB80#64] ∧
      decode .p 0x010000000000BB80#64 = .ok (.init 48000)) ∧
    ((presented waiting .control 0x1500000000000000#64).turns = [.agent .control] ∧
      (presented waiting .control 0x1500000000000000#64).portC = [0x1500000000000000#64] ∧
      decode .c 0x1500000000000000#64 = .ok .grate) := by decide +kernel

theorem test_meets_FetchWordRunsNext :
    (decodeTableWord 64 0x0300000000000000 = some .isrdy ∧ Instr.isrdy.port = .p) ∧
    (decodeTableWord 64 0x1500000000000000 = some .grate ∧ Instr.grate.port = .c) := by decide

theorem test_meets_BusyPortAcceptsNothing :
    (waiting.wphase ≠ .none ∧ nextTurn { waiting with turns := [.agent .producer] } ≠ .reset ∧
      ∃ t, step { waiting with turns := [.agent .producer] } = .next t) ∧
    (publishing.wphase ≠ .none ∧ nextTurn { publishing with turns := [.agent .producer] } ≠ .reset ∧
      ∃ t, step { publishing with turns := [.agent .producer] } = .next t) :=
  ⟨⟨by decide, by decide, ⟨_, rfl⟩⟩, ⟨by decide, by decide, ⟨_, rfl⟩⟩⟩

/-- The least and the greatest rate REF-A accepts (V-C1), with and without a claimed engine. -/
theorem test_meets_InitRestartsTransmitPath :
    (30 < 2 ^ 32 ∧ State.reset.failed = false ∧ rateAccepted State.reset.cfg 30 ∧
      (State.reset.engineClaimed = true ∨ State.reset.engineAvailable = true)) ∧
    (1953125 < 2 ^ 32 ∧ draining.failed = false ∧ rateAccepted draining.cfg 1953125 ∧
      (draining.engineClaimed = true ∨ draining.engineAvailable = true)) := by
  unfold rateAccepted representable
  decide +kernel

theorem test_meets_InitErrorsInPriority :
    { State.reset with failed := true }.failed = true ∧
    (State.reset.failed = false ∧ ¬ rateAccepted State.reset.cfg 0 ∧ ¬ rateAccepted State.reset.cfg 29 ∧
      ¬ rateAccepted State.reset.cfg 1953126) ∧
    ({ State.reset with engineAvailable := false }.failed = false ∧ rateAccepted State.reset.cfg 30 ∧
      { State.reset with engineAvailable := false }.engineClaimed = false ∧
      { State.reset with engineAvailable := false }.engineAvailable = false) := by
  unfold rateAccepted representable
  decide +kernel

/-- With a master clock too; 1953126 is accepted by neither. -/
theorem test_meets_ClockDividersByRule :
    rateAccepted Config.refA 1953125 ∧ rateAccepted { Config.refA with hasMclk := true } 48000 ∧
    ¬ rateAccepted Config.refA 1953126 ∧ ¬ rateAccepted { Config.refA with hasMclk := true } 1953125 := by
  unfold rateAccepted representable
  decide +kernel

theorem test_meets_FrameRateIsNeverBelowRequest :
    Config.refA.valid = true ∧ clockCfg Config.refA 1953125 = some (0x000100#24, 0#24) := by decide +kernel

/-- One operand for each clause; counts 4 and 5, and a block that passes the top of SRC by one frame (V-F7). -/
theorem test_meets_WriteErrorsInPriority :
    { State.reset with failed := true }.failed = true ∧
    (State.reset.failed = false ∧ State.reset.inited = false) ∧
    ((started .refA).failed = false ∧ (started .refA).inited = true ∧
      (fmtWide .m24r = true ∧ (started .refA).cfg.nativeFmt = .packed16)) ∧
    (¬ (fmtWide .m16 = true ∧ (started .refA).cfg.nativeFmt = .packed16) ∧ (started .refA).cfg.bufFrames < 5) ∧
    (4 ≤ (started .refA).cfg.bufFrames ∧ 1 % containerBytes .m16 ≠ 0) ∧
    (2 ≤ (started .refA).cfg.bufFrames ∧ 2 ^ 32 < 0xFFFFFFFC + 2 * frameBytes .s16) := by decide +kernel

/-- A block that ends exactly at the top of SRC (V-F7), a whole buffer, and a wide one in LJ24. -/
theorem test_meets_WriteAcceptProcessesBlock :
    ((started .refA).failed = false ∧ (started .refA).inited = true ∧
      ¬ (fmtWide .s16 = true ∧ (started .refA).cfg.nativeFmt = .packed16) ∧ 1 ≤ (started .refA).cfg.bufFrames ∧
      0xFFFFFFFC % containerBytes .s16 = 0 ∧ 0xFFFFFFFC + 1 * frameBytes .s16 ≤ 2 ^ 32) ∧
    ((started .refB).failed = false ∧ (started .refB).inited = true ∧
      ¬ (fmtWide .s24l = true ∧ (started .refB).cfg.nativeFmt = .packed16) ∧ 4 ≤ (started .refB).cfg.bufFrames ∧
      0 % containerBytes .s24l = 0 ∧ 0 + 4 * frameBytes .s24l ≤ 2 ^ 32) := by decide +kernel

theorem test_meets_WriteOfNoFramesIsSilence :
    (started .refA).failed = false ∧ (started .refA).inited = true ∧
    ¬ (fmtWide .m16 = true ∧ (started .refA).cfg.nativeFmt = .packed16) ∧
    0 % containerBytes .m16 = 0 ∧ 2 ^ 32 % containerBytes .m16 = 0 := by decide +kernel

theorem test_meets_SampleReadsLittleEndian :
    fmtWide .s16 = false ∧ (fmtWide .s24r = true ∧ fmtLeftJustified .s24r = false) ∧
    (fmtWide .m24l = true ∧ fmtLeftJustified .m24l = true) := by decide

theorem test_meets_MonoFeedsBothChannels : fmtStereo .m16 = false ∧ fmtStereo .m24l = false := by decide

/-- V-G9: the attenuation -32768 is at the floor, -32767 above it. -/
theorem test_meets_TargetGainRule :
    { State.reset with mute2 := true }.mute2 = true ∧ { State.reset with mute0 := true }.mute0 = true ∧
    { State.reset with mute1 := true }.mute1 = true ∧
    (0xC000#16).toInt + (0xC000#16).toInt ≤ -32768 ∧ -32768 < (0xC000#16).toInt + (0xC001#16).toInt := by decide

theorem test_meets_RoundingTruncates : (0 : Rat) ≤ 7 / 4 ∧ (-7 / 4 : Rat) < 0 := by decide +kernel

/-- V-G8: in range at its bound, above it by one, and below it by one. -/
theorem test_meets_ApplyClampsToFullScale :
    inFullScale 16 (rnd ((-16384 : Int) * 2)) ∧ 2 ^ (16 - 1) - 1 < rnd ((16384 : Int) * 2) ∧
    rnd ((-32769 : Int) * 1) < -2 ^ (16 - 1) ∧ inFullScale 24 (2 ^ 23 - 1) := by
  unfold inFullScale
  decide +kernel

theorem test_meets_UnitGainNeverClips :
    inFullScale 16 (-32768) ∧ (0 : Rat) ≤ 1 ∧ (1 : Rat) ≤ 1 ∧ inFullScale 24 (2 ^ 23 - 1) := by
  unfold inFullScale
  decide +kernel

theorem test_meets_RampIsLinearAndMonotone : 1 ≤ 1 ∧ (0 : Rat) ≤ 1 ∧ 0 < 1 := by decide +kernel

theorem test_meets_MutedChannelIsSilent :
    ({ started .refA with mute1 := true, gainCur1 := 0 }.mute2 = true ∨
      getMute { started .refA with mute1 := true, gainCur1 := 0 } (sideChan .right) = true) ∧
    getGainCur { started .refA with mute1 := true, gainCur1 := 0 } .right = 0 ∧
    { started .refA with mute1 := true, gainCur1 := 0 }.cfg.nativeFmt = .packed16 ∧
    (started .refB).cfg.nativeFmt = .lj24 := by decide +kernel

theorem test_meets_WaitStepHoldsOrPasses :
    (waiting.wphase = .wait ∧ waiting.txState = .idle ∧ getReady waiting waiting.active = false) ∧
    (waitingBehind.wphase = .wait ∧ waitingBehind.txState ≠ .idle ∧
      getReady waitingBehind (otherSlot waitingBehind.active) = false ∧
      getReady { waitingBehind with ready1 := true } (otherSlot waitingBehind.active) = true) := by decide +kernel

/-- The first word and the last. -/
theorem test_meets_FillStepStoresOneWord :
    (filling.wphase = .fill ∧ filling.widx = 0 ∧ filling.widx < bufWords filling.cfg ∧
      filling.stage[filling.widx]? = some 0x11111111#32) ∧
    (fillingBehind.wphase = .fill ∧ fillingBehind.widx + 1 = bufWords fillingBehind.cfg ∧
      fillingBehind.stage[fillingBehind.widx]? = some 0x44444444#32) := by decide +kernel

theorem test_meets_PublishStepSetsFlagAndStarts :
    (publishing.wphase = .publish ∧ publishing.txState = .idle ∧ publishing.engBusy = false) ∧
    (publishingBehind.wphase = .publish ∧ publishingBehind.txState ≠ .idle) := by decide +kernel

theorem test_meets_IsrdyReportsTarget :
    { State.reset with failed := true }.failed = true ∧ (State.reset.failed = false ∧ State.reset.inited = false) ∧
    (draining.failed = false ∧ draining.inited = true ∧ draining.txState ≠ .idle ∧
      getReady draining (otherSlot draining.active) = false ∧
      getReady { draining with ready1 := true } (otherSlot draining.active) = true) := by decide +kernel

theorem test_meets_HandlerFreesTarget :
    SafeState { completedTwo with turns := [.agent .handler] } ∧
    nextTurn { completedTwo with turns := [.agent .handler] } = .agent .handler ∧
    handlerEnabled { completedTwo with turns := [.agent .handler] } = true ∧
    ∃ t, step { completedTwo with turns := [.agent .handler] } = .next t :=
  ⟨safe_of_check (by decide +kernel), rfl, rfl, ⟨_, rfl⟩⟩

theorem test_meets_NextBlockGoesToOtherBuffer :
    (SafeState { publishing with turns := [.agent .producer] } ∧ publishing.wphase = .publish ∧
      publishing.txState = .idle ∧ ∃ t, step { publishing with turns := [.agent .producer] } = .next t) ∧
    (SafeState { publishingBehind with turns := [.agent .producer] } ∧ publishingBehind.wphase = .publish ∧
      publishingBehind.txState ≠ .idle ∧ ∃ t, step { publishingBehind with turns := [.agent .producer] } = .next t) :=
  ⟨⟨safe_of_check (by decide +kernel), rfl, rfl, ⟨_, rfl⟩⟩, safe_of_check (by decide +kernel), rfl, by decide, ⟨_, rfl⟩⟩

theorem test_meets_SvolClampsAndStores : State.reset.cfg.valid = true := by decide +kernel

/-- The first word of a transfer, and the last. -/
theorem test_meets_EngineMovesOneWord :
    (draining.engBusy = true ∧ draining.smEn = true ∧ (bufRead draining draining.engAddr.toNat).toOption =
      some 0x11111111#32 ∧ 1 < draining.engCnt.toNat) ∧
    ({ draining with engAddr := 3#32, engCnt := 1#32 }.engCnt.toNat = 1 ∧
      (bufRead { draining with engAddr := 3#32, engCnt := 1#32 } 3).toOption = some 0x11111111#32) := by decide +kernel

theorem test_meets_DisabledTurnChangesNothing :
    (State.reset.wphase = .none ∧ State.reset.portP = []) ∧ State.reset.portC = [] ∧ State.reset.engBusy = false ∧
    { draining with smEn := false }.smEn = false ∧ State.reset.irqPend = false ∧
    { completedOne with irqEn := false }.irqEn = false := by decide +kernel

theorem test_meets_HandlerStepTable :
    (completedTwo.irqPend = true ∧ completedTwo.irqEn = true ∧ completedTwo.engBusy = false) ∧
    ({ completedTwo with txState := .idle }.txState = .idle) ∧
    (completedTwo.txState ≠ .idle ∧ completedTwo.active = .a ∧ completedTwo.ready1 = true) ∧
    (completedB.irqPend = true ∧ completedB.txState ≠ .idle ∧ completedB.active = .b ∧ completedB.ready0 = true) ∧
    (completedOne.irqPend = true ∧ completedOne.txState ≠ .idle ∧ completedOne.active = .a ∧
      completedOne.ready1 = false) := by decide +kernel

theorem test_meets_HandlerTouchesOnlyItsState :
    nextTurn { completedTwo with turns := [.agent .handler] } = .agent .handler ∧
    ∃ t, step { completedTwo with turns := [.agent .handler] } = .next t := ⟨rfl, ⟨_, rfl⟩⟩

/-- All four words of DRAIN_A. -/
theorem test_meets_TransferMovesRemainingWords :
    SafeState { draining with turns := List.replicate 4 (.agent .engine) } ∧ draining.engBusy = true ∧
    (List.replicate 4 0x11111111#32).length = draining.engCnt.toNat ∧
    (∀ (j : Nat) (w : Word), (List.replicate 4 0x11111111#32)[j]? = some w →
      bufRead draining (draining.engAddr.toNat + j) = .ok w) := by
  refine ⟨safe_of_check (by decide +kernel), rfl, rfl, fun j w h => ?_⟩
  obtain ⟨hj, rfl⟩ := List.getElem?_eq_some_iff.mp h
  have hj : j < 4 := by simpa using hj
  interval_cases j <;> rfl

theorem test_meets_WriteRunsToPublish :
    (SafeState { waiting with turns := List.replicate (bufWords waiting.cfg + 2) (.agent .producer) } ∧
      waiting.wphase = .wait ∧ waiting.txState = .idle ∧ targetFree waiting = true) ∧
    (SafeState { waitingBehind with turns := List.replicate (bufWords waitingBehind.cfg + 2) (.agent .producer) } ∧
      waitingBehind.wphase = .wait ∧ waitingBehind.txState ≠ .idle ∧ targetFree waitingBehind = true) :=
  ⟨⟨safe_of_check (by decide +kernel), rfl, rfl, rfl⟩, safe_of_check (by decide +kernel), rfl, by decide, rfl⟩

theorem test_meets_FirstBlockIsTransmitted :
    SafeState { waiting with
      turns := List.replicate (bufWords waiting.cfg + 2) (.agent .producer) ++
        List.replicate (bufWords waiting.cfg) (.agent .engine) } ∧
    waiting.wphase = .wait ∧ waiting.txState = .idle ∧ waiting.inited = true :=
  ⟨safe_of_check (by decide +kernel), rfl, rfl, rfl⟩

theorem test_meets_UnderrunTransmitsSilence :
    SafeState { completedOne with
      turns := .agent .handler :: List.replicate (bufWords completedOne.cfg) (.agent .engine) } ∧
    completedOne.irqPend = true ∧ completedOne.irqEn = true ∧
    getReady completedOne (otherSlot completedOne.active) = false :=
  ⟨safe_of_check (by decide +kernel), rfl, rfl, rfl⟩

theorem test_meets_ResetLeavesTable : { publishing with turns := [.reset] }.turns = [.reset] := rfl

theorem test_meets_ResetStateIsSafe : Config.refA.valid = true ∧ Config.refB.valid = true := by decide +kernel

theorem test_meets_StepKeepsInvariants :
    SafeState { fillingBehind with turns := [.agent .producer] } ∧
    ∃ t, step { fillingBehind with turns := [.agent .producer] } = .next t :=
  ⟨safe_of_check (by decide +kernel), ⟨_, rfl⟩⟩

theorem test_meets_SafeStateNeverStops : SafeState completedTwo := test_safe_completedTwo

/-- A WRITE on port P, so that the gains change. -/
theorem test_meets_GainsStayInUnit :
    (started .refA).cfg.volMax = 0 ∧ SafeState (presented (started .refA) .producer 0x0200000000000000#64) ∧
    GainsInUnit (presented (started .refA) .producer 0x0200000000000000#64) ∧
    ∃ t, step (presented (started .refA) .producer 0x0200000000000000#64) = .next t := by
  refine ⟨rfl, safe_of_check (by decide +kernel), fun c => ?_, ⟨_, rfl⟩⟩
  cases c <;> decide +kernel

theorem test_meets_OnlyResetClearsFailed :
    nextTurn { State.reset with failed := true, turns := [.agent .engine] } ≠ .reset ∧
    ∃ t, step { State.reset with failed := true, turns := [.agent .engine] } = .next t := ⟨by decide, ⟨_, rfl⟩⟩

theorem test_meets_OnlyEngineWritesTxOut :
    ∃ t, step { draining with turns := [.agent .engine] } = .next t ∧ t.txOut ≠ draining.txOut :=
  ⟨_, rfl, by decide⟩

theorem test_meets_ControlCommandsFrame : Instr.port (.smute .ch0 true) = .c ∧ Instr.port .grate = .c := by decide

theorem test_meets_CommandsLeaveMemory : ∃ t, exec (.write .m16 0 4) (started .refA) = .next t := ⟨_, rfl⟩

/-- A command of port C, one of port P answered at once, and a WRITE that waits. -/
theorem test_meets_OneResponsePerCommand :
    (∃ t, exec .grate State.reset = .next t) ∧ (∃ t, exec .isrdy State.reset = .next t) ∧
    (∃ t, exec (.write .m16 0 0) (started .refA) = .next t ∧ t.wphase = .wait) :=
  ⟨⟨_, rfl⟩, ⟨_, rfl⟩, _, rfl, rfl⟩

theorem test_meets_ConfigurationNeverChanges :
    ∃ t, step { completedTwo with turns := [.agent .handler] } = .next t := ⟨_, rfl⟩

/-- A change of TXSTATE by the handler, one by the publish step, and one by an INIT answered OK. -/
theorem test_meets_TxStateChangesOnlyByTable :
    (∃ t, step { completedTwo with turns := [.agent .handler] } = .next t ∧ t.txState ≠ completedTwo.txState) ∧
    (∃ t, step { publishing with turns := [.agent .producer] } = .next t ∧ t.txState ≠ publishing.txState) ∧
    (∃ t, step (presented draining .producer 0x010000000000BB80#64) = .next t ∧ t.txState ≠ draining.txState) :=
  ⟨⟨_, rfl, by decide⟩, ⟨_, rfl, by decide⟩, _, rfl, by decide⟩

theorem test_meets_FillingIsNeverDraining :
    SafeState fillingBehind ∧ fillingBehind.wphase = .fill ∧ fillingBehind.engBusy = true :=
  ⟨test_safe_fillingBehind, rfl, rfl⟩

theorem test_meets_ControlStateDoesNotReachTransmit :
    (∃ t, step { draining with turns := [.agent .engine] } = .next t) ∧
    (∃ t, step { completedOne with turns := [.agent .handler] } = .next t) := ⟨⟨_, rfl⟩, ⟨_, rfl⟩⟩

/-- The highest address of SRC. -/
theorem test_meets_CollaboratorStoresByte :
    { State.reset with turns := [.store 0xFFFFFFFF#32 0x5A#8] }.turns = [.store 0xFFFFFFFF#32 0x5A#8] ∧
    Memory.wf State.reset.src = true := by decide

/-- A tolerance below 1 and one above it. -/
theorem test_meets_DbToLinearIsWithinTolerance :
    Config.refA.valid = true ∧ { Config.refA with db2linEps := 2 }.valid = true := by decide +kernel

/-- 43_gain_smoothing.md R184: 10^(5120/5120) is 10 and 10^(-5120/5120) is 1/10; 11 is not within 1/1000 of 10. -/
theorem test_tolerance :
    withinTolerance (1 / 1000) 10 dbDecade ∧ withinTolerance (1 / 1000) (1 / 10) (-dbDecade) ∧
    ¬ withinTolerance (1 / 1000) 11 dbDecade ∧ ¬ withinTolerance (1 / 1000) 9 dbDecade := by decide +kernel

end Sys2Proof.Tests
end

section
/-! SUPPORT. Facts about the invariants of Safety.lean: the sizes a valid configuration allows, what a safe state says of
the transfer in flight, and how each part of the invariants is established. -/

namespace Sys2Proof.Machine

/-! ### Sizes -/

theorem bufFrames_of_valid {c : Config} (h : c.valid = true) : 1 ≤ c.bufFrames ∧ c.bufFrames ≤ 65535 := by
  simp only [Config.valid, Bool.and_eq_true, decide_eq_true_eq] at h
  tauto

theorem volRange_of_valid {c : Config} (h : c.valid = true) :
    -32768 ≤ c.volMin ∧ c.volMin ≤ 0 ∧ 0 ≤ c.volMax ∧ c.volMax ≤ 32767 := by
  simp only [Config.valid, Bool.and_eq_true, decide_eq_true_eq] at h
  tauto

/-- A buffer has a word, and the whole map of 20_memory.md R63 fits the 32 bits of ENG_ADDR. -/
theorem bufWords_bounds {c : Config} (h : c.valid = true) : 1 ≤ bufWords c ∧ 3 * bufWords c < 2 ^ 32 := by
  have hb := bufFrames_of_valid h
  unfold bufWords wordsPerFrame
  cases c.nativeFmt <;> simp only <;> omega

/-- A clamped volume is in the range of R36, and 16 bits hold it. -/
theorem toInt_clampVol {c : Config} (h : c.valid = true) (v : Int) :
    (BitVec.ofInt 16 (clampVol c v)).toInt = clampVol c v ∧ c.volMin ≤ clampVol c v ∧ clampVol c v ≤ c.volMax := by
  have hr := volRange_of_valid h
  have hv : c.volMin ≤ clampVol c v ∧ clampVol c v ≤ c.volMax := by unfold clampVol; omega
  refine ⟨?_, hv⟩
  rw [BitVec.toInt_ofInt, Int.bmod_eq_of_le] <;> omega

/-! ### Gains -/

theorem db2linUp_pos (c : Config) (n : Nat) : 0 < db2linUp c n := by
  induction n with
  | zero => exact one_pos
  | succ n ih => exact ih.trans (gainAbove_gt c n ih)

theorem db2linDown_pos (c : Config) (n : Nat) : 0 < db2linDown c n := by
  induction n with
  | zero => exact one_pos
  | succ n ih => exact (gainBelow_lt c (-n) ih).1

/-- 43_gain_smoothing.md R184, P3. -/
theorem db2lin_pos (c : Config) (a : Int) : 0 < db2lin c a := by
  cases a with
  | ofNat n => exact db2linUp_pos c n
  | negSucc n => exact db2linDown_pos c (n + 1)

theorem target_nonneg (s : State) (c : Side) : 0 ≤ target s c := by
  unfold target
  split
  · exact le_rfl
  · exact (db2lin_pos _ _).le

/-! ### Written words -/

/-- A write takes no word's value away. -/
theorem isSome_readCell_writeCell {w : Nat} {m : Memory w} {b : Nat} (a : Nat) (v : BitVec w)
    (h : (readCell m b).isSome = true) : (readCell (writeCell m a v) b).isSome = true := by
  rw [readCell_writeCell]
  split
  · rfl
  · exact h

/-! ### The ready flags -/

theorem setReady_eq (s : State) (i : Slot) (v : Bool) :
    setReady s i v = { s with
      ready0 := if i = .a then v else s.ready0
      ready1 := if i = .b then v else s.ready1 } := by
  cases i <;> rfl

/-- Writing the value a flag has already changes nothing. -/
theorem setReady_getReady {s : State} {i : Slot} {v : Bool} (h : getReady s i = v) : setReady s i v = s := by
  subst h
  cases i <;> rfl

/-- The ready-flag protocol while transmission runs: what drains is the active buffer, and its flag is true, or it is
silence, and the flag is false; a WRITE in progress fills the other buffer, not yet ready. -/
theorem flagsOk_running_iff {s : State} (hx : s.txState ≠ .idle) :
    FlagsOk s ↔
      ((s.txState = drainOf s.active ∧ getReady s s.active = true) ∨
       (s.txState = .drainSilence ∧ getReady s s.active = false)) ∧
      ((s.wphase = .fill ∨ s.wphase = .publish) → s.wt = otherSlot s.active ∧ getReady s s.wt = false) := by
  constructor
  · intro h
    refine ⟨?_, fun hw => ⟨h.runningTarget hx hw, h.fillingNotReady hw⟩⟩
    cases htx : s.txState with
    | idle => exact absurd htx hx
    | drainA =>
      obtain ⟨ha, hr⟩ := h.drainA htx
      simp [ha, hr, drainOf, getReady]
    | drainB =>
      obtain ⟨ha, hr⟩ := h.drainB htx
      simp [ha, hr, drainOf, getReady]
    | drainSilence => exact .inr ⟨rfl, h.silence htx⟩
  · rintro ⟨hd, hw⟩
    refine ⟨fun h => (hw h).2, fun h => ?_, fun h => ?_, fun h => absurd h hx, fun h => absurd h hx,
      fun _ h => (hw h).1, fun h => ?_⟩
    all_goals cases ha : s.active <;> simp_all [drainOf, getReady]

theorem drainOf_ne_idle (i : Slot) : drainOf i ≠ .idle := by cases i <;> simp [drainOf]

theorem transferBase_of_drainOf {s : State} {i : Slot} (h : s.txState = drainOf i) :
    transferBase s = slotBase s.cfg i := by
  unfold transferBase
  cases i <;> simp [h, drainOf]

theorem transferBase_of_silence {s : State} (h : s.txState = .drainSilence) : transferBase s = silenceBase s.cfg := by
  simp [transferBase, h]

theorem transferBase_le (s : State) : transferBase s ≤ silenceBase s.cfg := by
  unfold transferBase silenceBase
  cases s.txState <;> simp only [slotBase] <;> omega

/-! ### The transfer in flight -/

theorem FlagsOk.running_of_busy {s : State} (h : FlagsOk s) (hb : s.engBusy = true) : s.txState ≠ .idle := by
  intro hx
  obtain ⟨-, -, hn, -⟩ := h.idle hx
  simp [hb] at hn

theorem FlagsOk.running_of_pending {s : State} (h : FlagsOk s) (hp : s.irqPend = true) : s.txState ≠ .idle := by
  intro hx
  obtain ⟨-, -, -, hn⟩ := h.idle hx
  simp [hp] at hn

theorem LifecycleOk.inited_of_running {s : State} (h : LifecycleOk s) (hx : s.txState ≠ .idle) : s.inited = true := by
  by_contra hi
  exact hx (h.notInited (by simpa using hi)).1

theorem LifecycleOk.inited_of_writing {s : State} (h : LifecycleOk s) (hw : s.wphase ≠ .none) : s.inited = true := by
  by_contra hi
  exact hw (h.notInited (by simpa using hi)).2

/-- ENG_ADDR stands inside the block of the transfer in flight (10_state.md R33). -/
theorem EngineOk.addr_in_transfer {s : State} (h : EngineOk s) (hb : s.engBusy = true) :
    transferBase s ≤ s.engAddr.toNat ∧ s.engAddr.toNat < transferBase s + bufWords s.cfg := by
  have h1 := h.addrBound hb
  have h2 := h.countBound
  have h3 := h.countPositive hb
  omega

/-- The engine never reads a word without a value (10_state.md R46 (e)). -/
theorem bufRead_engAddr_ok {s : State} (hf : FlagsOk s) (he : EngineOk s) (hb : s.engBusy = true) :
    ∃ w, bufRead s s.engAddr.toNat = .ok w := by
  have hx := hf.running_of_busy hb
  obtain ⟨hlo, hhi⟩ := he.addr_in_transfer hb
  obtain ⟨⟨htx, hr⟩ | ⟨htx, -⟩, -⟩ := (flagsOk_running_iff hx).mp hf
  · rw [transferBase_of_drainOf htx] at hlo hhi
    obtain ⟨j, hj⟩ := Nat.exists_eq_add_of_le hlo
    have hlt : j < bufWords s.cfg := by omega
    obtain ⟨w, hw⟩ := Option.isSome_iff_exists.mp (he.readyWritten _ hr j hlt)
    exact ⟨w, bufRead_eq_ok.mpr (.inl ⟨hj ▸ slotBase_add_lt hlt, hj ▸ hw⟩)⟩
  · rw [transferBase_of_silence htx] at hlo hhi
    exact ⟨0#32, bufRead_eq_ok.mpr (.inr ⟨hlo, by unfold silenceBase at hhi; omega, rfl⟩)⟩

/-- What ARM leaves (42_transmitter_binding.md R155) is a transfer of W words from its base. -/
theorem engineOk_of_armed {s : State} {b : Nat} (hc : s.cfg.valid = true) (hb : s.engBusy = true)
    (hp : s.irqPend = false) (ha : s.engAddr = BitVec.ofNat 32 b) (hbase : transferBase s = b)
    (hn : s.engCnt = BitVec.ofNat 32 (bufWords s.cfg)) (hw : ∀ i, getReady s i = true → slotWritten s i) : EngineOk s := by
  obtain ⟨hpos, hlt⟩ := bufWords_bounds hc
  have hle := transferBase_le s
  unfold silenceBase at hle
  have hcnt : s.engCnt.toNat = bufWords s.cfg := by
    rw [hn, BitVec.toNat_ofNat, Nat.mod_eq_of_lt (by omega)]
  have haddr : s.engAddr.toNat = transferBase s := by
    rw [ha, ← hbase, BitVec.toNat_ofNat, Nat.mod_eq_of_lt (by omega)]
  exact {
    countBound := hcnt.le
    addrBound := fun _ => by rw [hcnt, haddr]
    countPositive := fun _ => hcnt ▸ hpos
    pendingNotBusy := fun h => by simp [hp] at h
    readyWritten := hw
    running := fun _ => .inl hb }

/-! ### A stopped transmit path, as RESET and INIT leave it -/

theorem flagsOk_of_stopped {s : State} (hx : s.txState = .idle) (h0 : s.ready0 = false) (h1 : s.ready1 = false)
    (hb : s.engBusy = false) (hq : s.irqPend = false) (hw : s.wphase = .none) : FlagsOk s := by
  constructor <;> simp [hx, h0, h1, hb, hq, hw]

theorem engineOk_of_stopped {s : State} (hx : s.txState = .idle) (h0 : s.ready0 = false) (h1 : s.ready1 = false)
    (hb : s.engBusy = false) (hn : s.engCnt = 0#32) : EngineOk s where
  countBound := by simp [hn]
  addrBound := by simp [hb]
  countPositive := by simp [hb]
  pendingNotBusy := fun _ => hb
  readyWritten := fun i hi => by cases i <;> simp [getReady, h0, h1] at hi
  running := fun h => absurd hx h

/-! ### What the invariants do not read -/

/-- `t` is `s` but for elements no invariant reads: MUTE, RATE and CLKDIV, what went out, and the inputs other than SRC. -/
def SameForSafety (s t : State) : Prop :=
  t = { s with
    mute0 := t.mute0, mute1 := t.mute1, mute2 := t.mute2, rate := t.rate, clkDiv := t.clkDiv
    txOut := t.txOut, respP := t.respP, respC := t.respC
    engineAvailable := t.engineAvailable, portP := t.portP, portC := t.portC, turns := t.turns, tick := t.tick }

theorem SafeState.of_same {s t : State} (ht : SameForSafety s t) (h : SafeState s) : SafeState t := by
  rw [ht]
  exact {
    config := h.config
    memory := { h.memory with }
    flags := { h.flags with }
    engine := { h.engine with }
    write := { h.write with }
    lifecycle := { h.lifecycle with }
    ranges := { h.ranges with } }

theorem SafeState.startTurn {s : State} (h : SafeState s) : SafeState (startTurn s) := h.of_same rfl

theorem SafeState.respond {s : State} (h : SafeState s) (port : Port) (st : Status) (v : Word) :
    SafeState (respond s port st v) := by
  cases port <;> exact h.of_same rfl

theorem SafeState.setMute {s : State} (h : SafeState s) (ch : Chan) (m : Bool) : SafeState (setMute s ch m) := by
  cases ch <;> exact h.of_same rfl

theorem SafeState.takePortP {s : State} (h : SafeState s) (rest : List DWord) : SafeState { s with portP := rest } :=
  h.of_same rfl

theorem SafeState.takePortC {s : State} (h : SafeState s) (rest : List DWord) : SafeState { s with portC := rest } :=
  h.of_same rfl

end Sys2Proof.Machine
end

section
/-! SUPPORT. The invariants are kept, one lemma per kind of move of Laws/Step.lean, and a safe state always moves. -/

namespace Sys2Proof.Machine

/-! ### RESET, INIT and the surroundings -/

/-- 70_reset_and_hazards.md R310: RESET makes a safe state, whatever it interrupts. -/
theorem safeState_hardwareReset {s : State} (hc : s.cfg.valid = true) (hm : MemoryOk s) :
    SafeState (hardwareReset s) := by
  have hv := volRange_of_valid hc
  exact {
    config := hc
    memory := { hm with bufCanonical := rfl, bufInMap := fun _ _ h => by simp [hardwareReset, State.powerOn, readCell] at h }
    flags := flagsOk_of_stopped rfl rfl rfl rfl rfl rfl
    engine := engineOk_of_stopped rfl rfl rfl rfl rfl
    write := by constructor <;> simp [hardwareReset, State.powerOn]
    lifecycle := by constructor <;> simp [hardwareReset, State.powerOn]
    ranges := {
      volume := fun ch => by cases ch <;> exact ⟨hv.2.1, hv.2.2.1⟩
      gain := fun c => by cases c <;> exact ⟨zero_le_one, zero_le_one⟩
      masterClock := fun _ => rfl } }

/-- The collaborator's store stays in the 32-bit address space of SRC. -/
theorem SafeState.store {s : State} (h : SafeState s) (a : BitVec 32) (v : Byte) :
    SafeState { s with src := writeCell s.src a.toNat v } where
  config := h.config
  memory := { h.memory with
    srcCanonical := Memory.wf_writeCell _ _ _ h.memory.srcCanonical
    srcInMap := fun b u hr => by
      rw [readCell_writeCell] at hr
      split at hr
      next hb => exact hb ▸ a.isLt
      next => exact h.memory.srcInMap b u hr }
  flags := { h.flags with }
  engine := { h.engine with }
  write := { h.write with }
  lifecycle := { h.lifecycle with }
  ranges := { h.ranges with }

/-- FAILED latches only where no engine was ever claimed, so before the first successful INIT (R275). -/
theorem SafeState.latchFailed {s : State} (h : SafeState s) (hc : s.engineClaimed = false) :
    SafeState { s with failed := true } where
  config := h.config
  memory := { h.memory with }
  flags := { h.flags with }
  engine := { h.engine with }
  write := { h.write with }
  lifecycle := { h.lifecycle with
    failed := fun _ => by
      refine ⟨?_, hc⟩
      by_contra hi
      obtain ⟨-, -, hclaimed⟩ := h.lifecycle.enabled (by simpa using hi)
      simp [hc] at hclaimed }
  ranges := { h.ranges with }

/-- CLOCKCFG answers MCLKDIV = 0 without a master clock (45_clock_configurator.md R250). -/
theorem clockCfg_no_mclk {c : Config} {r : Nat} {cd md : Divider} (h : clockCfg c r = some (cd, md))
    (hm : c.hasMclk = false) : md = 0#24 := by
  unfold clockCfg at h
  split at h
  · simp at h
  · split at h
    · simp at h
    · simp only [hm, Bool.false_eq_true, if_false, Option.some.injEq, Prod.mk.injEq] at h
      exact h.2.symm

/-- 42_transmitter_binding.md R150: an INIT that succeeds starts the transmit path afresh. -/
theorem SafeState.restart {s : State} (h : SafeState s) {r : Nat} {cd md : Divider} (hp : s.wphase = .none)
    (hf : s.failed = false) (hclk : clockCfg s.cfg r = some (cd, md)) :
    SafeState (restart { s with engineClaimed := true } r cd md) where
  config := h.config
  memory := { h.memory with }
  flags := flagsOk_of_stopped rfl rfl rfl rfl rfl hp
  engine := engineOk_of_stopped rfl rfl rfl rfl rfl
  write := { h.write with }
  lifecycle := by constructor <;> simp [hf]
  ranges := { h.ranges with
    gain := fun c => by cases c <;> exact ⟨zero_le_one, zero_le_one⟩
    masterClock := fun hm => clockCfg_no_mclk hclk hm }

/-! ### The producer -/

/-- 41_double_buffer.md R121: the accepted WRITE has its whole block in STAGE. -/
theorem SafeState.acceptWrite {s : State} (h : SafeState s) (f : Fmt) (ptr : Nat) {cnt : Nat} (hi : s.inited = true)
    (hcnt : cnt ≤ s.cfg.bufFrames) : SafeState { process s f ptr cnt with wphase := .wait } where
  config := h.config
  memory := { h.memory with }
  flags := { h.flags with
    fillingNotReady := by simp
    idleTarget := by simp
    runningTarget := by simp }
  engine := { h.engine with }
  write := {
    stageFull := fun _ => stageWords_length s f ptr cnt hcnt
    indexBound := by simp
    filledSoFar := by simp
    filledWhole := by simp }
  lifecycle := { h.lifecycle with notInited := by simp [hi] }
  ranges := { h.ranges with
    gain := fun c => by
      have hcur : 0 ≤ if 1 ≤ cnt then target s c else getGainCur s c := by
        split
        · exact target_nonneg s c
        · exact (h.ranges.gain c).1
      cases c <;> exact ⟨hcur, target_nonneg s _⟩ }

/-- 41_double_buffer.md R123: the wait step ends at a free target, which is the active buffer before the start and the
other one after it. -/
theorem SafeState.startFill {s : State} (h : SafeState s) (hp : s.wphase = .wait) (hfree : targetFree s = true) :
    SafeState { s with wt := tgt s, widx := 0, wphase := .fill } where
  config := h.config
  memory := { h.memory with }
  flags := { h.flags with
    fillingNotReady := fun _ => by
      simp only [targetFree, Bool.not_eq_true'] at hfree
      exact hfree
    idleTarget := fun hx _ => by rw [tgt_eq]; exact if_pos hx
    runningTarget := fun hx _ => by rw [tgt_eq]; exact if_neg hx }
  engine := { h.engine with }
  write := {
    stageFull := fun _ => h.write.stageFull (.inl hp)
    indexBound := fun _ => (bufWords_bounds h.config).1
    filledSoFar := by simp
    filledWhole := by simp }
  lifecycle := { h.lifecycle with
    notInited := by simp [h.lifecycle.inited_of_writing (by simp [hp])] }
  ranges := { h.ranges with }

/-- 41_double_buffer.md R124: the fill step writes one more word of BUF[WT], and the last one completes it. -/
theorem SafeState.fillWord {s : State} (h : SafeState s) (w : Word) (hp : s.wphase = .fill) :
    SafeState { s with
      buf := writeCell s.buf (slotBase s.cfg s.wt + s.widx) w
      widx := s.widx + 1
      wphase := if s.widx + 1 = bufWords s.cfg then .publish else .fill } where
  config := h.config
  memory := { h.memory with
    bufCanonical := Memory.wf_writeCell _ _ _ h.memory.bufCanonical
    bufInMap := fun b u hr => by
      rw [readCell_writeCell] at hr
      split at hr
      next hb => exact hb ▸ slotBase_add_lt (h.write.indexBound hp)
      next => exact h.memory.bufInMap b u hr }
  flags := { h.flags with
    fillingNotReady := fun _ => h.flags.fillingNotReady (.inl hp)
    idleTarget := fun hx _ => h.flags.idleTarget hx (.inl hp)
    runningTarget := fun hx _ => h.flags.runningTarget hx (.inl hp) }
  engine := { h.engine with
    readyWritten := fun i hi j hj => isSome_readCell_writeCell _ _ (h.engine.readyWritten i hi j hj) }
  write := by
    have hfilled : ∀ j, j < s.widx + 1 →
        (readCell (writeCell s.buf (slotBase s.cfg s.wt + s.widx) w) (slotBase s.cfg s.wt + j)).isSome = true := by
      intro j hj
      rcases Nat.lt_succ_iff_lt_or_eq.mp hj with hlt | rfl
      · exact isSome_readCell_writeCell _ _ (h.write.filledSoFar hp j hlt)
      · rw [readCell_writeCell_same]; rfl
    have hle := h.write.indexBound hp
    refine ⟨fun _ => h.write.stageFull (.inr hp), fun hf => ?_, fun _ => hfilled, fun hf j hj => ?_⟩
    · by_contra hn
      have hlast : s.widx + 1 = bufWords s.cfg := by simp only at hn; omega
      simp [hlast] at hf
    · by_cases hlast : s.widx + 1 = bufWords s.cfg
      · exact hfilled j (hlast ▸ hj)
      · simp [hlast] at hf
  lifecycle := { h.lifecycle with
    notInited := by simp [h.lifecycle.inited_of_writing (by simp [hp])] }
  ranges := { h.ranges with }

/-- A buffer whose flag is true after the publish step is written: the others before it, BUF[WT] by the fill steps. -/
theorem SafeState.readyWritten_publish {s : State} (h : SafeState s) (hp : s.wphase = .publish) (i : Slot)
    (hi : getReady (setReady s s.wt true) i = true) : slotWritten s i := by
  rw [getReady_setReady] at hi
  split at hi
  next hw => exact hw ▸ h.write.filledWhole hp
  next => exact h.engine.readyWritten i hi

/-- 41_double_buffer.md R125, while transmission runs. -/
theorem SafeState.publishRunning {s : State} (h : SafeState s) (hp : s.wphase = .publish) (hx : s.txState ≠ .idle) :
    SafeState { setReady s s.wt true with wphase := .none } := by
  have hready := h.readyWritten_publish hp
  obtain ⟨hdrains, hfills⟩ := (flagsOk_running_iff hx).mp h.flags
  have hactive : getReady (setReady s s.wt true) s.active = getReady s s.active := by
    rw [getReady_setReady, (hfills (.inr hp)).1, if_neg (otherSlot_ne _).symm]
  rw [← hactive] at hdrains
  rw [setReady_eq] at hready hdrains ⊢
  exact {
    config := h.config
    memory := { h.memory with }
    flags := (flagsOk_running_iff (by exact hx)).mpr ⟨hdrains, by simp⟩
    engine := { h.engine with readyWritten := hready }
    write := by constructor <;> simp
    lifecycle := { h.lifecycle with
      notInited := by simp [h.lifecycle.inited_of_running hx] }
    ranges := { h.ranges with } }

/-- 41_double_buffer.md R125, with nothing running: the buffer just published is the active one, and is armed. -/
theorem SafeState.publishIdle {s : State} (h : SafeState s) (hp : s.wphase = .publish) (hx : s.txState = .idle) :
    SafeState { setReady s s.wt true with
      wphase := .none
      engAddr := BitVec.ofNat 32 (slotBase s.cfg s.wt)
      engCnt := BitVec.ofNat 32 (bufWords s.cfg)
      engBusy := true
      txState := drainOf s.wt } := by
  have hready := h.readyWritten_publish hp
  have hset : getReady (setReady s s.wt true) s.wt = true := by simp
  have hwt := h.flags.idleTarget hx (.inr hp)
  obtain ⟨-, -, -, hpend⟩ := h.flags.idle hx
  rw [setReady_eq] at hready hset ⊢
  exact {
    config := h.config
    memory := { h.memory with }
    flags := (flagsOk_running_iff (drainOf_ne_idle _)).mpr ⟨.inl (hwt ▸ ⟨rfl, hset⟩), by simp⟩
    engine := engineOk_of_armed h.config rfl hpend rfl (transferBase_of_drainOf rfl) rfl hready
    write := by constructor <;> simp
    lifecycle := { h.lifecycle with
      notInited := by simp [h.lifecycle.inited_of_writing (by simp [hp])] }
    ranges := { h.ranges with } }

/-! ### The control context -/

/-- 43_gain_smoothing.md R194: the stored volume is clamped to its range. -/
theorem SafeState.setVolume {s : State} (h : SafeState s) (ch : Chan) (v : Int) :
    SafeState (setVol s ch (clampVol s.cfg v)) := by
  obtain ⟨heq, hrange⟩ := toInt_clampVol h.config v
  have hvol : ∀ c, s.cfg.volMin ≤ getVol (setVol s ch (clampVol s.cfg v)) c ∧
      getVol (setVol s ch (clampVol s.cfg v)) c ≤ s.cfg.volMax := by
    intro c
    rw [getVol_setVol]
    split
    · rw [heq]; exact hrange
    · exact h.ranges.volume c
  cases ch <;> exact {
    config := h.config
    memory := { h.memory with }
    flags := { h.flags with }
    engine := { h.engine with }
    write := { h.write with }
    lifecycle := { h.lifecycle with }
    ranges := { h.ranges with volume := hvol } }

/-! ### The engine and the handler -/

/-- 42_transmitter_binding.md R157: the engine stays inside its block, and at its end the completion is pending, for the
interrupt is enabled while transmission runs. -/
theorem SafeState.advanceEngine {s : State} (h : SafeState s) (hb : s.engBusy = true) :
    SafeState (advanceEngine s) := by
  have hx := h.flags.running_of_busy hb
  obtain ⟨hirq, -, -⟩ := h.lifecycle.enabled (h.lifecycle.inited_of_running hx)
  have hpos := h.engine.countPositive hb
  have hcnt : (s.engCnt - 1#32).toNat = s.engCnt.toNat - 1 := by bv_omega
  have hbound := h.engine.countBound
  have haddr : (s.engAddr + 1#32).toNat = s.engAddr.toNat + 1 := by
    have hin := h.engine.addr_in_transfer hb
    have hle := transferBase_le s
    have hmap := (bufWords_bounds h.config).2
    unfold silenceBase at hle
    bv_omega
  rw [advanceEngine_eq]
  by_cases hlast : s.engCnt - 1#32 = 0#32
  · rw [if_pos hlast]
    exact {
      config := h.config
      memory := { h.memory with }
      flags := { h.flags with idle := fun hi => absurd hi hx }
      engine := { h.engine with
        countBound := by simp only; omega
        addrBound := by simp
        countPositive := by simp
        pendingNotBusy := fun _ => rfl
        running := fun _ => .inr (if_pos hirq) }
      write := { h.write with }
      lifecycle := { h.lifecycle with }
      ranges := { h.ranges with } }
  · rw [if_neg hlast]
    exact {
      config := h.config
      memory := { h.memory with }
      flags := { h.flags with }
      engine := { h.engine with
        countBound := by simp only; omega
        addrBound := fun _ => by
          have hsum := h.engine.addrBound hb
          simp only [hcnt, haddr]
          exact Eq.trans (by omega) hsum
        countPositive := fun _ => by
          simp only
          bv_omega }
      write := { h.write with }
      lifecycle := { h.lifecycle with }
      ranges := { h.ranges with } }

/-- 60_exceptions.md R281: in a safe running state the handler's first act leaves the active buffer's flag false. After a
silence transfer it was false already (10_state.md R46 (h)). -/
theorem clearDrained_of_running {s : State} (hf : FlagsOk s) (hx : s.txState ≠ .idle) :
    clearDrained s = setReady s s.active false := by
  rw [clearDrained_eq]
  obtain ⟨⟨htx, -⟩ | ⟨htx, hr⟩, -⟩ := (flagsOk_running_iff hx).mp hf
  · rw [if_pos (by rw [htx]; cases s.active <;> simp [drainOf])]
  · rw [setReady_getReady hr, ite_self]

/-- 60_exceptions.md R281: the handler arms the other buffer if it is ready, and the silence buffer if not. -/
theorem SafeState.rearm {s t : State} (h : SafeState s) (hq : s.irqPend = true)
    (hr : rearm (clearDrained { s with irqPend := false }) = .ok t) : SafeState t := by
  have hx := h.flags.running_of_pending hq
  have hinit := h.lifecycle.inited_of_running hx
  have hflags : FlagsOk { s with irqPend := false } := { h.flags with idle := fun hi => absurd hi hx }
  obtain ⟨-, hfills⟩ := (flagsOk_running_iff hx).mp h.flags
  rw [clearDrained_of_running hflags hx, rearm_eq_ok] at hr
  have hready : ∀ i, getReady (setReady { s with irqPend := false } s.active false) i = true → slotWritten s i := by
    intro i hi
    rw [getReady_setReady] at hi
    split at hi
    next => simp at hi
    next => exact h.engine.readyWritten i hi
  have hother : getReady (setReady { s with irqPend := false } s.active false) (otherSlot s.active) =
      getReady s (otherSlot s.active) := by
    rw [getReady_setReady, if_neg (otherSlot_ne _)]
    rfl
  have hactive : getReady (setReady { s with irqPend := false } s.active false) s.active = false := by simp
  rw [setReady_eq] at hr hready hother hactive
  obtain ⟨-, ⟨ho, rfl⟩ | ⟨ho, rfl⟩⟩ := hr
  · exact {
      config := h.config
      memory := { h.memory with }
      flags := (flagsOk_running_iff (drainOf_ne_idle _)).mpr ⟨.inl ⟨rfl, ho⟩, fun hw => by
        obtain ⟨hwt, hnr⟩ := hfills hw
        rw [hwt, ← hother] at hnr
        exact absurd (ho.symm.trans hnr) (by decide)⟩
      engine := engineOk_of_armed h.config rfl rfl rfl (transferBase_of_drainOf rfl) rfl hready
      write := { h.write with }
      lifecycle := { h.lifecycle with notInited := by simp [hinit] }
      ranges := { h.ranges with } }
  · exact {
      config := h.config
      memory := { h.memory with }
      flags := (flagsOk_running_iff (by simp)).mpr ⟨.inr ⟨rfl, hactive⟩, fun hw => by
        obtain ⟨hwt, -⟩ := hfills hw
        exact ⟨hwt, hwt ▸ ho⟩⟩
      engine := engineOk_of_armed h.config rfl rfl rfl (transferBase_of_silence rfl) rfl hready
      write := { h.write with }
      lifecycle := { h.lifecycle with notInited := by simp [hinit] }
      ranges := { h.ranges with } }

end Sys2Proof.Machine
end

section
/-! The statements of 10_state.md: the invariants and their preservation, the absence of faults, reset, and disabled
turns. -/

namespace Sys2Proof.Machine

/-! ### Every step keeps the invariants -/

/-- The invariants are kept by every move, whichever agent or surrounding makes it. -/
theorem Move.keeps_safe {s t : State} {u : Turn} (m : Move s u t) (h : SafeState s) : SafeState t := by
  cases m with
  | stay => exact h
  | reset => exact safeState_hardwareReset h.config h.memory
  | store a v => exact h.store a v
  | available yes => exact h.of_same rfl
  | answerP rest st v _ _ _ => exact (h.takePortP rest).respond .p st v
  | initNoEngine rest _ _ hc r _ _ _ => exact ((h.takePortP rest).latchFailed hc).respond .p .errNoEngine 0#32
  | initOk rest r cd md hp hf hclk _ _ _ => exact ((h.takePortP rest).restart hp hf hclk).respond .p .ok 0#32
  | writeAccepted rest f ptr cnt _ _ hi _ hcnt _ _ _ _ => exact (h.takePortP rest).acceptWrite f ptr hi hcnt
  | waited hp hfree => exact h.startFill hp hfree
  | filled w hp _ _ => exact h.fillWord w hp
  | publishedRunning hp hx => exact (h.publishRunning hp hx).respond .p .ok 0#32
  | publishedIdle hp hx _ => exact (h.publishIdle hp hx).respond .p .ok 0#32
  | answerC rest st v => exact (h.takePortC rest).respond .c st v
  | muted rest ch m => exact ((h.takePortC rest).setMute ch m).respond .c .ok 0#32
  | volumeSet rest ch v => exact ((h.takePortC rest).setVolume ch v).respond .c .ok 0#32
  | wordMoved w hb _ _ _ => exact SafeState.advanceEngine (h.of_same rfl) hb
  | completedIdle hq _ hx => exact absurd hx (h.flags.running_of_pending hq)
  | completed _ hq _ _ hr => exact h.rearm hq hr

/-- Settles O47: a step is a move from the state in which its turn starts, and each move keeps the invariants. -/
theorem stepKeepsInvariants : Obligations.StepKeepsInvariants :=
  fun _ _ h hstep => (step_move hstep).keeps_safe h.startTurn

/-! ### A safe state never stops -/

/-- Every command answers a next state, in every state. -/
theorem exec_next (i : Instr) (s : State) : ∃ t, exec i s = .next t := by
  cases i with
  | init r =>
    simp only [exec, execInit]
    split
    · exact ⟨_, rfl⟩
    · split
      · exact ⟨_, rfl⟩
      · split_ifs <;> exact ⟨_, rfl⟩
  | write f ptr cnt =>
    simp only [exec, execWrite]
    split_ifs <;> exact ⟨_, rfl⟩
  | isrdy =>
    simp only [exec, execIsrdy]
    split_ifs <;> exact ⟨_, rfl⟩
  | _ => exact exec_control_next _ rfl s

theorem acceptWord_next (port : Port) (cw : DWord) (s : State) : ∃ t, acceptWord port cw s = .next t := by
  unfold acceptWord
  split
  · exact exec_next _ s
  · exact ⟨_, rfl⟩

/-- The fill step finds its word in STAGE and its address below the silence buffer (20_memory.md R64). -/
theorem SafeState.fillStep_next {s : State} (h : SafeState s) (hp : s.wphase = .fill) : ∃ t, fillStep s = .next t := by
  have hidx := h.write.indexBound hp
  have hlen := h.write.stageFull (.inr hp)
  exact ⟨_, fillStep_eq_next.mpr ⟨_, List.getElem?_eq_getElem (hlen ▸ hidx), slotBase_add_lt hidx, rfl⟩⟩

/-- The publish step arms only an engine that is not busy (U12). -/
theorem SafeState.publishStep_next {s : State} (h : SafeState s) : ∃ t, publishStep s = .next t := by
  by_cases hx : s.txState = .idle
  · obtain ⟨-, -, hb, -⟩ := h.flags.idle hx
    exact ⟨_, publishStep_eq_next.mpr (.inr ⟨hx, hb, rfl⟩)⟩
  · exact ⟨_, publishStep_eq_next.mpr (.inl ⟨hx, rfl⟩)⟩

theorem SafeState.producerTurn_next {s : State} (h : SafeState s) : ∃ t, producerTurn s = .next t := by
  unfold producerTurn
  cases hp : s.wphase with
  | none =>
    simp only [acceptP]
    split
    · exact ⟨_, rfl⟩
    · exact acceptWord_next _ _ _
  | wait =>
    simp only [waitStep]
    split <;> exact ⟨_, rfl⟩
  | fill => exact h.fillStep_next hp
  | publish => exact h.publishStep_next

theorem controlTurn_next (s : State) : ∃ t, controlTurn s = .next t := by
  unfold controlTurn
  split
  · exact ⟨_, rfl⟩
  · exact acceptWord_next _ _ _

/-- While busy the engine has a word left, and that word has a value. -/
theorem SafeState.engineTurn_next {s : State} (h : SafeState s) : ∃ t, engineTurn s = .next t := by
  unfold engineTurn
  split
  next he =>
    simp only [engineEnabled, Bool.and_eq_true] at he
    obtain ⟨w, hw⟩ := bufRead_engAddr_ok h.flags h.engine he.1
    have hcnt : s.engCnt ≠ 0#32 := by
      have hpos := h.engine.countPositive he.1
      intro h0
      simp [h0] at hpos
    exact ⟨_, engineWord_eq_next.mpr ⟨hcnt, w, hw, rfl⟩⟩
  next => exact ⟨_, rfl⟩

/-- The handler finds the engine not busy: its completion is pending (10_state.md R46 (g)). -/
theorem SafeState.handlerTurn_next {s : State} (h : SafeState s) : ∃ t, handlerTurn s = .next t := by
  unfold handlerTurn
  split
  next he =>
    simp only [handlerEnabled, Bool.and_eq_true] at he
    have hb := h.engine.pendingNotBusy he.1
    have hx := h.flags.running_of_pending he.1
    have hbusy : (clearDrained { s with irqPend := false }).engBusy = false := by
      rw [clearDrained_eq]
      split <;> simpa using hb
    cases ho : getReady (clearDrained { s with irqPend := false })
        (otherSlot (clearDrained { s with irqPend := false }).active) with
    | true => exact ⟨_, takeCompletion_eq_next.mpr (.inr ⟨hx, rearm_eq_ok.mpr ⟨hbusy, .inl ⟨ho, rfl⟩⟩⟩)⟩
    | false => exact ⟨_, takeCompletion_eq_next.mpr (.inr ⟨hx, rearm_eq_ok.mpr ⟨hbusy, .inr ⟨ho, rfl⟩⟩⟩)⟩
  next => exact ⟨_, rfl⟩

theorem SafeState.takeTurn_next {s : State} (h : SafeState s) (u : Turn) : ∃ t, takeTurn u s = .next t := by
  cases u with
  | agent a =>
    cases a with
    | producer => exact h.producerTurn_next
    | control => exact controlTurn_next s
    | engine => exact h.engineTurn_next
    | handler => exact h.handlerTurn_next
  | reset => exact ⟨_, rfl⟩
  | store a v => exact ⟨_, rfl⟩
  | available yes => exact ⟨_, rfl⟩

/-- Settles O48: the turn of a step is taken in a safe state, and there every turn answers a next state. -/
theorem safeStateNeverStops : Obligations.SafeStateNeverStops :=
  fun s h => h.startTurn.takeTurn_next (nextTurn s)

/-! ### The buffer being filled -/

/-- Settles O57: a WRITE in its fill phase has INIT behind it; with TXSTATE = IDLE nothing drains, and otherwise the
active buffer or silence drains while the other buffer is filled. -/
theorem fillingIsNeverDraining : Obligations.FillingIsNeverDraining := by
  intro s h hp
  have hfilled : beingFilled s s.wt = true := by simp [beingFilled, hp]
  by_cases hx : s.txState = .idle
  · obtain ⟨-, -, hb, -⟩ := h.flags.idle hx
    refine ⟨?_, fun hbusy => by simp [hb] at hbusy⟩
    rw [owner, if_neg (hx ▸ (drainOf_ne_idle _).symm), if_pos hfilled]
  · obtain ⟨hdrains, hfills⟩ := (flagsOk_running_iff hx).mp h.flags
    obtain ⟨hwt, -⟩ := hfills (.inl hp)
    have hne : s.txState ≠ drainOf (otherSlot s.active) := by
      obtain ⟨htx, -⟩ | ⟨htx, -⟩ := hdrains <;> rw [htx] <;> cases s.active <;> simp [drainOf, otherSlot]
    rw [owner, if_pos hfilled, hwt, if_neg hne]
    refine ⟨rfl, fun hb j hj => ?_⟩
    have hin := h.engine.addr_in_transfer hb
    obtain ⟨htx, -⟩ | ⟨htx, -⟩ := hdrains
    · rw [transferBase_of_drainOf htx] at hin
      cases hact : s.active <;> simp only [hact, slotBase, otherSlot] at hin ⊢ <;> omega
    · rw [transferBase_of_silence htx] at hin
      have hbelow := slotBase_add_lt (i := otherSlot s.active) hj
      omega

/-! ### Disabled turns -/

/-- A step with a turn scheduled takes that turn, which is spent and counted. -/
theorem step_of_turns {s : State} {u : Turn} {ts : List Turn} (h : s.turns = u :: ts) :
    step s = takeTurn u { s with turns := ts, tick := s.tick + 1 } := by
  rw [step, nextTurn_of_turns h, startTurn, h, List.tail_cons]

theorem engineTurn_disabled {s : State} (h : s.engBusy = false ∨ s.smEn = false) : engineTurn s = .next s :=
  if_neg (by simpa [engineEnabled, imp_iff_not_or] using h)

theorem handlerTurn_disabled {s : State} (h : s.irqPend = false ∨ s.irqEn = false) : handlerTurn s = .next s :=
  if_neg (by simpa [handlerEnabled, imp_iff_not_or] using h)

/-- Settles O38, by the four agents. -/
theorem disabledTurnChangesNothing : Obligations.DisabledTurnChangesNothing := by
  intro s a ts hts hdis
  rw [step_of_turns hts]
  obtain ⟨rfl, hp, hq⟩ | ⟨rfl, hq⟩ | ⟨rfl, hoff⟩ | ⟨rfl, hoff⟩ := hdis
  · simp [takeTurn, agentTurn, producerTurn, acceptP, hp, hq]
  · simp [takeTurn, agentTurn, controlTurn, hq]
  · exact engineTurn_disabled hoff
  · exact handlerTurn_disabled hoff

/-! ### Reset -/

/-- RESET leaves the table of 10_state.md R47, in every state. -/
theorem resetTable_hardwareReset (s : State) : ResetTable (hardwareReset s) where
  buffers := fun _ _ => rfl
  silence := fun _ hlo hhi => bufRead_eq_ok.mpr (.inr ⟨hlo, hhi, rfl⟩)
  ready := ⟨rfl, rfl⟩
  active := rfl
  txState := rfl
  engineClaimed := rfl
  engine := ⟨rfl, rfl, rfl⟩
  enables := ⟨rfl, rfl, rfl⟩
  gains := ⟨rfl, rfl, rfl, rfl⟩
  mutes := ⟨rfl, rfl, rfl⟩
  volumes := ⟨rfl, rfl, rfl⟩
  rate := rfl
  dividers := ⟨rfl, rfl⟩
  lifecycle := ⟨rfl, rfl⟩
  producer := ⟨rfl, rfl, rfl⟩
  stage := rfl
  logs := ⟨rfl, rfl, rfl⟩

/-- The power-on state is one that RESET leaves as it is. -/
theorem hardwareReset_powerOn (c : Config) : hardwareReset (State.powerOn c) = State.powerOn c := rfl

theorem resetTable_powerOn (c : Config) : ResetTable (State.powerOn c) :=
  hardwareReset_powerOn c ▸ resetTable_hardwareReset (State.powerOn c)

/-- Settles O45: the state after reset is one that RESET leaves as it is, and a RESET turn keeps the inputs. -/
theorem resetLeavesTable : Obligations.ResetLeavesTable := by
  refine ⟨resetTable_powerOn Config.refA, fun s ts hts => ?_⟩
  exact ⟨_, step_of_turns hts, resetTable_hardwareReset _, rfl, rfl, rfl, rfl, rfl, rfl⟩

theorem memoryOk_powerOn (c : Config) : MemoryOk (State.powerOn c) where
  bufCanonical := rfl
  bufInMap := fun _ _ h => by simp [State.powerOn, readCell] at h
  srcCanonical := rfl
  srcInMap := fun _ _ h => by simp [State.powerOn, readCell] at h

theorem valid_refA : Config.refA.valid = true := by norm_num [Config.valid, Config.refA]

/-- Settles O46: RESET makes a safe state of any state with a valid configuration and SRC in its address space. -/
theorem resetStateIsSafe : Obligations.ResetStateIsSafe := by
  have hsafe : ∀ c : Config, c.valid = true → SafeState (State.powerOn c) := fun c hc =>
    hardwareReset_powerOn c ▸ safeState_hardwareReset hc (memoryOk_powerOn c)
  exact ⟨hsafe, hsafe Config.refA valid_refA⟩

end Sys2Proof.Machine
end

section
/-! The statements of 20_memory.md: what commands leave of the memories, what the transmit side does not see of the
control registers, and the collaborator's store. -/

namespace Sys2Proof.Machine

/-! ### Commands and the memories -/

/-- `t` has the configuration, the memories and the instant of `s`: all that a read of BUFMEM or SRC depends on. -/
def SameMemories (s t : State) : Prop :=
  t.cfg = s.cfg ∧ t.buf = s.buf ∧ t.src = s.src ∧ t.tick = s.tick

theorem SameMemories.bufRead_eq {s t : State} (h : SameMemories s t) (a : Nat) : bufRead t a = bufRead s a := by
  obtain ⟨hcfg, hbuf, -, -⟩ := h
  exact bufRead_congr hcfg hbuf a

/-- SRC at an address depends on the byte placed there and on the instant. -/
theorem srcByte_congr {s t : State} {a : Nat} (hcell : readCell t.src a = readCell s.src a) (htick : t.tick = s.tick) :
    srcByte t a = srcByte s a := by
  rw [srcByte, srcByte, hcell, htick]

theorem SameMemories.srcByte_eq {s t : State} (h : SameMemories s t) (a : Nat) : srcByte t a = srcByte s a := by
  obtain ⟨-, -, hsrc, htick⟩ := h
  exact srcByte_congr (congrArg (readCell · a) hsrc) htick

/-- INIT touches no memory, whichever of its four answers it gives (42_transmitter_binding.md R150). -/
theorem execInit_sameMemories {r : Nat} {s t : State} (h : execInit r s = .next t) : SameMemories s t := by
  obtain ⟨-, rfl⟩ | ⟨-, -, rfl⟩ | ⟨-, cd, md, -, hclaim⟩ := execInit_eq_next.mp h
  · simp [SameMemories]
  · simp [SameMemories]
  · obtain ⟨-, rfl⟩ | ⟨-, -, rfl⟩ | ⟨-, -, rfl⟩ := hclaim <;> simp [SameMemories]

/-- The accept step of WRITE fills STAGE, which is no memory of the map (41_double_buffer.md R121). -/
theorem execWrite_sameMemories {f : Fmt} {ptr cnt : Nat} {s t : State} (h : execWrite f ptr cnt s = .next t) :
    SameMemories s t := by
  obtain ⟨st, rfl⟩ | ⟨-, -, -, -, -, rfl⟩ := execWrite_eq_next h <;> simp [SameMemories]

theorem execIsrdy_sameMemories {s t : State} (h : execIsrdy s = .next t) : SameMemories s t := by
  obtain ⟨st, v, rfl⟩ := execIsrdy_eq_next h
  simp [SameMemories]

theorem exec_control_sameMemories {i : Instr} (hi : i.port = .c) {s t : State} (h : exec i s = .next t) :
    SameMemories s t := by
  obtain ⟨v, rfl⟩ | ⟨ch, m, rfl⟩ | ⟨ch, v, rfl⟩ := exec_control_cases hi h <;> simp [SameMemories]

theorem exec_sameMemories {i : Instr} {s t : State} (h : exec i s = .next t) : SameMemories s t := by
  cases i with
  | init r => exact execInit_sameMemories h
  | write f ptr cnt => exact execWrite_sameMemories h
  | isrdy => exact execIsrdy_sameMemories h
  | _ => exact exec_control_sameMemories rfl h

/-- Settles O53: a command's own step keeps all that a read of either memory depends on. -/
theorem commandsLeaveMemory : Obligations.CommandsLeaveMemory :=
  fun _ _ _ h => ⟨(exec_sameMemories h).bufRead_eq, (exec_sameMemories h).srcByte_eq⟩

/-! ### The transmit side and the control registers -/

/-- Values for the control registers MUTE and VOL (10_state.md R35, R36). -/
structure ControlRegs where
  mute0 : Bool
  mute1 : Bool
  mute2 : Bool
  vol0 : BitVec 16
  vol1 : BitVec 16
  vol2 : BitVec 16

/-- `s` with other values in the control registers. -/
def State.withControls (s : State) (r : ControlRegs) : State :=
  { s with mute0 := r.mute0, mute1 := r.mute1, mute2 := r.mute2, vol0 := r.vol0, vol1 := r.vol1, vol2 := r.vol2 }

section Withcontrols

variable {s t : State} (r : ControlRegs)

theorem advanceEngine_withControls (s : State) :
    advanceEngine (s.withControls r) = (advanceEngine s).withControls r := by
  rw [advanceEngine_eq, advanceEngine_eq, apply_ite (State.withControls · r)]
  rfl

theorem clearDrained_withControls (s : State) : clearDrained (s.withControls r) = (clearDrained s).withControls r := by
  have hset : setReady (s.withControls r) s.active false = (setReady s s.active false).withControls r := by
    cases s.active <;> rfl
  rw [clearDrained_eq, clearDrained_eq, apply_ite (State.withControls · r), ← hset]
  rfl

theorem getReady_withControls (s : State) (i : Slot) : getReady (s.withControls r) i = getReady s i := by
  cases i <;> rfl

theorem rearm_withControls (h : rearm s = .ok t) : rearm (s.withControls r) = .ok (t.withControls r) := by
  obtain ⟨hb, ⟨ho, rfl⟩ | ⟨ho, rfl⟩⟩ := rearm_eq_ok.mp h
  · exact rearm_eq_ok.mpr ⟨hb, .inl ⟨(getReady_withControls r s _).trans ho, rfl⟩⟩
  · exact rearm_eq_ok.mpr ⟨hb, .inr ⟨(getReady_withControls r s _).trans ho, rfl⟩⟩

/-- The engine reads buffer memory and its own registers (42_transmitter_binding.md R157). -/
theorem engineTurn_withControls (h : engineTurn s = .next t) :
    engineTurn (s.withControls r) = .next (t.withControls r) := by
  unfold engineTurn at h ⊢
  split at h
  next he =>
    obtain ⟨hcnt, w, hw, rfl⟩ := engineWord_eq_next.mp h
    rw [if_pos (show engineEnabled (s.withControls r) = true from he)]
    have hread : bufRead (s.withControls r) s.engAddr.toNat = .ok w := (bufRead_congr rfl rfl _).trans hw
    exact engineWord_eq_next.mpr ⟨hcnt, w, hread, (advanceEngine_withControls r (txPush s w)).symm⟩
  next he =>
    rw [if_neg (show ¬ engineEnabled (s.withControls r) = true from he), next_eq_next.mp h]

/-- The handler reads the flags, ACTIVE, TXSTATE and the engine's registers (60_exceptions.md R281). -/
theorem handlerTurn_withControls (h : handlerTurn s = .next t) :
    handlerTurn (s.withControls r) = .next (t.withControls r) := by
  unfold handlerTurn at h ⊢
  split at h
  next he =>
    rw [if_pos (show handlerEnabled (s.withControls r) = true from he)]
    obtain ⟨hx, rfl⟩ | ⟨hx, hr⟩ := takeCompletion_eq_next.mp h
    · exact takeCompletion_eq_next.mpr (.inl ⟨hx, rfl⟩)
    · have hclear := clearDrained_withControls r { s with irqPend := false }
      exact takeCompletion_eq_next.mpr (.inr ⟨hx, (congrArg rearm hclear).trans (rearm_withControls r hr)⟩)
  next he =>
    rw [if_neg (show ¬ handlerEnabled (s.withControls r) = true from he), next_eq_next.mp h]

/-- Neither the choice of the turn nor the engine's or the handler's turn reads MUTE or VOL. -/
theorem step_withControls (hturn : nextTurn s = .agent .engine ∨ nextTurn s = .agent .handler)
    (hstep : step s = .next t) : step (s.withControls r) = .next (t.withControls r) := by
  unfold step at hstep ⊢
  rw [show nextTurn (s.withControls r) = nextTurn s from rfl,
    show startTurn (s.withControls r) = (startTurn s).withControls r from rfl]
  obtain hturn | hturn := hturn <;> rw [hturn] at hstep ⊢
  · exact engineTurn_withControls r hstep
  · exact handlerTurn_withControls r hstep

end Withcontrols

/-- Settles O58: the engine's and the handler's steps commute with setting MUTE and VOL. -/
theorem controlStateDoesNotReachTransmit : Obligations.ControlStateDoesNotReachTransmit :=
  fun _ _ m0 m1 m2 v0 v1 v2 hturn hstep => step_withControls ⟨m0, m1, m2, v0, v1, v2⟩ hturn hstep

/-! ### The collaborator's store -/

/-- The byte placed at an address is the one SRC holds there, at every instant. -/
theorem srcByte_of_readCell {s : State} {a : Nat} {v : Byte} (h : readCell s.src a = some v) : srcByte s a = v := by
  rw [srcByte, h, Option.getD_some]

/-- Settles O59: read after write of one cell of SRC, and the frame of that write. -/
theorem collaboratorStoresByte : Obligations.CollaboratorStoresByte := by
  intro s a v ts hts
  refine ⟨_, step_of_turns hts, rfl, fun n => ?_, fun b n hb => ?_, Memory.wf_writeCell _ _ _⟩
  · exact srcByte_of_readCell (readCell_writeCell_same s.src a.toNat v)
  · exact srcByte_congr (readCell_writeCell_other s.src v hb) rfl

end Sys2Proof.Machine
end

section
/-! The statements of 30_encoding.md about the decoder: each field and each table of the encoding has an inverse, so the
decoder and the encoder are inverse to each other, and the decoder accepts exactly the rows of the opcode table. -/

namespace Sys2Proof

open Machine

/-! ### The fields of a doubleword (30_encoding.md R93) -/

section Fields

variable (opc sel : BitVec 8) (cnt : BitVec 16) (arg : BitVec 32)

@[simp] theorem opcField_packCommand : opcField (packCommand opc sel cnt arg) = opc :=
  (BitVec.extractLsb'_append_eq_of_le (by decide)).trans <|
    (BitVec.extractLsb'_append_eq_of_le (by decide)).trans BitVec.extractLsb'_append_eq_left

@[simp] theorem selField_packCommand : selField (packCommand opc sel cnt arg) = sel :=
  (BitVec.extractLsb'_append_eq_of_le (by decide)).trans <|
    (BitVec.extractLsb'_append_eq_of_le (by decide)).trans BitVec.extractLsb'_append_eq_right

@[simp] theorem cntField_packCommand : cntField (packCommand opc sel cnt arg) = cnt :=
  (BitVec.extractLsb'_append_eq_of_le (by decide)).trans BitVec.extractLsb'_append_eq_right

@[simp] theorem argField_packCommand : argField (packCommand opc sel cnt arg) = arg :=
  BitVec.extractLsb'_append_eq_right

end Fields

/-- The four fields are the whole doubleword. -/
theorem packCommand_fields (cw : DWord) : packCommand (opcField cw) (selField cw) (cntField cw) (argField cw) = cw := by
  have hsel : opcField cw ++ selField cw = cw.extractLsb' 48 16 :=
    BitVec.extractLsb'_append_extractLsb'_eq_extractLsb' rfl
  have hcnt : cw.extractLsb' 48 16 ++ cntField cw = cw.extractLsb' 32 32 :=
    BitVec.extractLsb'_append_extractLsb'_eq_extractLsb' rfl
  rw [packCommand, hsel, hcnt]
  exact (BitVec.extractLsb'_append_extractLsb'_eq_extractLsb' rfl).trans BitVec.extractLsb'_eq_self

theorem opcField_toNat (cw : DWord) : (opcField cw).toNat = cw.toNat / 2 ^ 56 := by
  have := cw.isLt
  rw [opcField, BitVec.extractLsb'_toNat, Nat.shiftRight_eq_div_pow]
  omega

theorem selField_toNat (cw : DWord) : (selField cw).toNat = cw.toNat / 2 ^ 48 % 2 ^ 8 := by
  rw [selField, BitVec.extractLsb'_toNat, Nat.shiftRight_eq_div_pow]

theorem cntField_toNat (cw : DWord) : (cntField cw).toNat = cw.toNat / 2 ^ 32 % 2 ^ 16 := by
  rw [cntField, BitVec.extractLsb'_toNat, Nat.shiftRight_eq_div_pow]

theorem argField_toNat (cw : DWord) : (argField cw).toNat = cw.toNat % 2 ^ 32 := by
  rw [argField, BitVec.extractLsb'_toNat, Nat.shiftRight_zero]

/-! ### The tables of OPC and SEL and their inverses (30_encoding.md R94, R95) -/

/-- OPC of an operation, the inverse of `opcodeOf`. -/
def opcodeBits : Opcode → BitVec 8
  | .init => 0x01#8
  | .write => 0x02#8
  | .isrdy => 0x03#8
  | .smute => 0x10#8
  | .gmute => 0x11#8
  | .svol => 0x12#8
  | .gvol => 0x13#8
  | .gvrng => 0x14#8
  | .grate => 0x15#8

theorem opcodeOf_eq_some {opc : BitVec 8} {op : Opcode} : opcodeOf opc = some op ↔ opc = opcodeBits op := by
  constructor
  · intro h
    unfold opcodeOf at h
    split_ifs at h <;> cases h <;> assumption
  · rintro rfl
    cases op <;> rfl

theorem fmtOfSel_eq_some {sel : BitVec 8} {f : Fmt} : fmtOfSel sel = some f ↔ sel = fmtSel f := by
  constructor
  · intro h
    unfold fmtOfSel at h
    split_ifs at h <;> cases h <;> assumption
  · rintro rfl
    cases f <;> rfl

theorem chanOfSel_eq_some {sel : BitVec 8} {ch : Chan} : chanOfSel sel = some ch ↔ sel = chanSel ch := by
  constructor
  · intro h
    unfold chanOfSel at h
    split_ifs at h <;> cases h <;> assumption
  · rintro rfl
    cases ch <;> rfl

theorem itemOfSel_eq_some {sel : BitVec 8} {item : RangeItem} : itemOfSel sel = some item ↔ sel = itemSel item := by
  constructor
  · intro h
    unfold itemOfSel at h
    split_ifs at h <;> cases h <;> assumption
  · rintro rfl
    cases item <;> rfl

/-! ### The ARG field of SMUTE and SVOL (30_encoding.md R95) -/

/-- M in ARG[0], the other bits zero. -/
theorem flagArg_fields (m : Bool) :
    (if m then 1#32 else 0#32).extractLsb' 1 31 = 0#31 ∧ (if m then 1#32 else 0#32).getLsbD 0 = m := by
  cases m <;> decide

/-- An ARG with no bit above ARG[0] is that bit. -/
theorem flagArg_of_high_zero {arg : BitVec 32} (h : arg.extractLsb' 1 31 = 0#31) :
    (if arg.getLsbD 0 then 1#32 else 0#32) = arg := by
  have hcat : (arg.extractLsb' 1 31).concat (arg.getLsbD 0) = arg := BitVec.concat_extractLsb'_getLsb
  rw [h] at hcat
  rw [← hcat]
  cases arg.getLsbD 0 <;> decide

/-- An ARG with a zero high half is its low half. -/
theorem volArg_of_high_zero {arg : BitVec 32} (h : arg.extractLsb' 16 16 = 0#16) :
    0#16 ++ arg.extractLsb' 0 16 = arg := by
  rw [← h]
  exact (BitVec.extractLsb'_append_extractLsb'_eq_extractLsb' rfl).trans BitVec.extractLsb'_eq_self

/-- V16 is exact in 16 bits two's complement. -/
theorem toInt_ofInt_of_fitsVol {v : Int} (h : fitsVol v = true) : (BitVec.ofInt 16 v).toInt = v := by
  simp only [fitsVol, decide_eq_true_eq] at h
  exact BitVec.toInt_ofInt_eq_self (by decide) (by omega) (by omega)

theorem fitsVol_toInt (v : BitVec 16) : fitsVol v.toInt = true := by
  have hlo := v.le_toInt
  have hhi := v.toInt_lt
  simp only [fitsVol, decide_eq_true_eq]
  omega

/-! ### The decoder, row by row (30_encoding.md R94, R95) -/

/-- The decoder in one line: the operation OPC names, on its own port, with its operands assembled. -/
theorem decode_eq_ok_iff {port : Port} {cw : DWord} {i : Instr} :
    decode port cw = .ok i ↔ ∃ op, opcField cw = opcodeBits op ∧ opcodePort op = port ∧
      decodeFields op (selField cw) (cntField cw) (argField cw) = .ok i := by
  simp only [← opcodeOf_eq_some]
  unfold decode
  cases opcodeOf (opcField cw) with
  | none => simp
  | some op => by_cases hp : opcodePort op = port <;> simp [hp]

section Rows

variable {sel : BitVec 8} {cnt : BitVec 16} {arg : BitVec 32} {i : Instr}

/-- A channel command with fields that must be zero. -/
theorem withChan_requireZero_eq_ok {zero : Bool} {x : Chan → Instr} :
    withChan sel (fun ch => requireZero zero (x ch)) = .ok i ↔ ∃ ch, sel = chanSel ch ∧ zero = true ∧ i = x ch := by
  simp only [withChan_eq_ok, requireZero_eq_ok, chanOfSel_eq_some]

theorem decodeFields_init_eq_ok :
    decodeFields .init sel cnt arg = .ok i ↔ sel = 0#8 ∧ cnt = 0#16 ∧ i = .init arg.toNat := by
  simp [decodeFields, requireZero_eq_ok, and_assoc]

theorem decodeFields_write_eq_ok :
    decodeFields .write sel cnt arg = .ok i ↔ ∃ f, sel = fmtSel f ∧ i = .write f arg.toNat cnt.toNat := by
  simp only [← fmtOfSel_eq_some, decodeFields]
  cases fmtOfSel sel <;> simp [eq_comm (a := i)]

theorem decodeFields_isrdy_eq_ok :
    decodeFields .isrdy sel cnt arg = .ok i ↔ sel = 0#8 ∧ cnt = 0#16 ∧ arg = 0#32 ∧ i = .isrdy := by
  simp [decodeFields, requireZero_eq_ok, and_assoc]

theorem decodeFields_smute_eq_ok :
    decodeFields .smute sel cnt arg = .ok i ↔
      ∃ ch, sel = chanSel ch ∧ cnt = 0#16 ∧ arg.extractLsb' 1 31 = 0#31 ∧ i = .smute ch (arg.getLsbD 0) := by
  simp [decodeFields, withChan_requireZero_eq_ok, and_assoc]

theorem decodeFields_gmute_eq_ok :
    decodeFields .gmute sel cnt arg = .ok i ↔ ∃ ch, sel = chanSel ch ∧ cnt = 0#16 ∧ arg = 0#32 ∧ i = .gmute ch := by
  simp [decodeFields, withChan_requireZero_eq_ok, and_assoc]

theorem decodeFields_svol_eq_ok :
    decodeFields .svol sel cnt arg = .ok i ↔
      ∃ ch, sel = chanSel ch ∧ cnt = 0#16 ∧ arg.extractLsb' 16 16 = 0#16 ∧
        i = .svol ch (arg.extractLsb' 0 16).toInt := by
  simp only [decodeFields, withChan_requireZero_eq_ok, Bool.and_eq_true, decide_eq_true_eq, and_assoc]

theorem decodeFields_gvol_eq_ok :
    decodeFields .gvol sel cnt arg = .ok i ↔ ∃ ch, sel = chanSel ch ∧ cnt = 0#16 ∧ arg = 0#32 ∧ i = .gvol ch := by
  simp [decodeFields, withChan_requireZero_eq_ok, and_assoc]

theorem decodeFields_gvrng_eq_ok :
    decodeFields .gvrng sel cnt arg = .ok i ↔
      ∃ item, sel = itemSel item ∧ cnt = 0#16 ∧ arg = 0#32 ∧ i = .gvrng item := by
  simp only [← itemOfSel_eq_some, decodeFields]
  cases itemOfSel sel <;> simp [requireZero_eq_ok, and_assoc]

theorem decodeFields_grate_eq_ok :
    decodeFields .grate sel cnt arg = .ok i ↔ sel = 0#8 ∧ cnt = 0#16 ∧ arg = 0#32 ∧ i = .grate := by
  simp [decodeFields, requireZero_eq_ok, and_assoc]

end Rows

/-! ### The round trip -/

theorem decode_packCommand (op : Opcode) {sel : BitVec 8} {cnt : BitVec 16} {arg : BitVec 32} {i : Instr}
    (h : decodeFields op sel cnt arg = .ok i) :
    decode (opcodePort op) (packCommand (opcodeBits op) sel cnt arg) = .ok i :=
  decode_eq_ok_iff.mpr ⟨op, by simp, rfl, by simpa using h⟩

/-- Settles O1: each row reads back the fields of its command, and each number fits the width of its field. -/
theorem decodeEncodeRoundTrip : Obligations.DecodeEncodeRoundTrip := by
  intro i hwf
  cases i with
  | init rate =>
    have hrate : rate < 2 ^ 32 := by simpa [Instr.wf, fitsArg] using hwf
    refine decode_packCommand .init (decodeFields_init_eq_ok.mpr ⟨rfl, rfl, ?_⟩)
    rw [BitVec.toNat_ofNat, Nat.mod_eq_of_lt hrate]
  | write f ptr cnt =>
    obtain ⟨hptr, hcnt⟩ : ptr < 2 ^ 32 ∧ cnt < 2 ^ 16 := by simpa [Instr.wf, fitsArg, fitsCnt] using hwf
    refine decode_packCommand .write (decodeFields_write_eq_ok.mpr ⟨f, rfl, ?_⟩)
    rw [BitVec.toNat_ofNat, Nat.mod_eq_of_lt hptr, BitVec.toNat_ofNat, Nat.mod_eq_of_lt hcnt]
  | isrdy => exact decode_packCommand .isrdy (decodeFields_isrdy_eq_ok.mpr ⟨rfl, rfl, rfl, rfl⟩)
  | smute ch m =>
    obtain ⟨hhigh, hflag⟩ := flagArg_fields m
    exact decode_packCommand .smute (decodeFields_smute_eq_ok.mpr ⟨ch, rfl, rfl, hhigh, by rw [hflag]⟩)
  | gmute ch => exact decode_packCommand .gmute (decodeFields_gmute_eq_ok.mpr ⟨ch, rfl, rfl, rfl, rfl⟩)
  | svol ch v =>
    have hhigh : (0#16 ++ BitVec.ofInt 16 v).extractLsb' 16 16 = 0#16 := BitVec.extractLsb'_append_eq_left
    have hlow : (0#16 ++ BitVec.ofInt 16 v).extractLsb' 0 16 = BitVec.ofInt 16 v := BitVec.extractLsb'_append_eq_right
    refine decode_packCommand .svol (decodeFields_svol_eq_ok.mpr ⟨ch, rfl, rfl, hhigh, ?_⟩)
    rw [hlow, toInt_ofInt_of_fitsVol hwf]
  | gvol ch => exact decode_packCommand .gvol (decodeFields_gvol_eq_ok.mpr ⟨ch, rfl, rfl, rfl, rfl⟩)
  | gvrng item => exact decode_packCommand .gvrng (decodeFields_gvrng_eq_ok.mpr ⟨item, rfl, rfl, rfl, rfl⟩)
  | grate => exact decode_packCommand .grate (decodeFields_grate_eq_ok.mpr ⟨rfl, rfl, rfl, rfl⟩)

theorem fitsArg_toNat (arg : BitVec 32) : fitsArg arg.toNat = true := decide_eq_true arg.isLt

theorem fitsCnt_toNat (cnt : BitVec 16) : fitsCnt cnt.toNat = true := decide_eq_true cnt.isLt

/-- The fields an operation accepts are the fields of the command it gives: a field that is no operand is zero, and an
operand keeps all its bits. -/
theorem encode_of_decodeFields {op : Opcode} {sel : BitVec 8} {cnt : BitVec 16} {arg : BitVec 32} {i : Instr}
    (h : decodeFields op sel cnt arg = .ok i) : i.wf = true ∧ encode i = packCommand (opcodeBits op) sel cnt arg := by
  cases op with
  | init =>
    obtain ⟨rfl, rfl, rfl⟩ := decodeFields_init_eq_ok.mp h
    exact ⟨fitsArg_toNat arg, by rw [encode, BitVec.ofNat_toNat, BitVec.setWidth_eq]; rfl⟩
  | write =>
    obtain ⟨f, rfl, rfl⟩ := decodeFields_write_eq_ok.mp h
    refine ⟨by rw [Instr.wf, fitsArg_toNat, fitsCnt_toNat]; rfl, ?_⟩
    rw [encode, BitVec.ofNat_toNat, BitVec.setWidth_eq, BitVec.ofNat_toNat, BitVec.setWidth_eq]
    rfl
  | isrdy =>
    obtain ⟨rfl, rfl, rfl, rfl⟩ := decodeFields_isrdy_eq_ok.mp h
    exact ⟨rfl, rfl⟩
  | smute =>
    obtain ⟨ch, rfl, rfl, hhigh, rfl⟩ := decodeFields_smute_eq_ok.mp h
    exact ⟨rfl, by rw [encode, flagArg_of_high_zero hhigh]; rfl⟩
  | gmute =>
    obtain ⟨ch, rfl, rfl, rfl, rfl⟩ := decodeFields_gmute_eq_ok.mp h
    exact ⟨rfl, rfl⟩
  | svol =>
    obtain ⟨ch, rfl, rfl, hhigh, rfl⟩ := decodeFields_svol_eq_ok.mp h
    exact ⟨fitsVol_toInt _, by rw [encode, BitVec.ofInt_toInt, volArg_of_high_zero hhigh]; rfl⟩
  | gvol =>
    obtain ⟨ch, rfl, rfl, rfl, rfl⟩ := decodeFields_gvol_eq_ok.mp h
    exact ⟨rfl, rfl⟩
  | gvrng =>
    obtain ⟨item, rfl, rfl, rfl, rfl⟩ := decodeFields_gvrng_eq_ok.mp h
    exact ⟨rfl, rfl⟩
  | grate =>
    obtain ⟨rfl, rfl, rfl, rfl⟩ := decodeFields_grate_eq_ok.mp h
    exact ⟨rfl, rfl⟩

/-- Settles O2: the operation's fields are those of the command, and the four fields are the whole doubleword. -/
theorem encodeDecodeRoundTrip : Obligations.EncodeDecodeRoundTrip := by
  intro port cw i h
  obtain ⟨op, hopc, -, hfields⟩ := decode_eq_ok_iff.mp h
  obtain ⟨hwf, henc⟩ := encode_of_decodeFields hfields
  exact ⟨hwf, by rw [henc, ← hopc, packCommand_fields]⟩

/-- The doubleword of a well-formed command decodes to it on the command's port. -/
theorem decode_of_encode {i : Instr} {port : Port} {cw : DWord} (hwf : i.wf = true) (hport : i.port = port)
    (henc : encode i = cw) : decode port cw = .ok i := by
  rw [← henc, ← hport]
  exact decodeEncodeRoundTrip i hwf

/-- Settles O4: each of the four words is the encoding of its command. -/
theorem specExampleEncodings : Obligations.SpecExampleEncodings :=
  ⟨decode_of_encode (by decide) rfl (by decide), decode_of_encode (by decide) rfl (by decide),
    decode_of_encode (by decide) rfl (by decide), decode_of_encode (by decide) rfl (by decide)⟩

/-! ### The legal doublewords, in numbers -/

/-- The row of an operation in the table of 30_encoding.md R94, with R95 and R98: which SEL, CNT and ARG it admits. -/
def rowAdmits (op : Opcode) (sel cnt arg : Nat) : Prop :=
  match op with
  | .init => sel = 0 ∧ cnt = 0
  | .write => sel = 0 ∨ sel = 1 ∨ sel = 2 ∨ sel = 3 ∨ sel = 6 ∨ sel = 7
  | .isrdy => sel = 0 ∧ cnt = 0 ∧ arg = 0
  | .smute => sel ≤ 2 ∧ cnt = 0 ∧ arg ≤ 1
  | .gmute => sel ≤ 2 ∧ cnt = 0 ∧ arg = 0
  | .svol => sel ≤ 2 ∧ cnt = 0 ∧ arg < 2 ^ 16
  | .gvol => sel ≤ 2 ∧ cnt = 0 ∧ arg = 0
  | .gvrng => sel ≤ 2 ∧ cnt = 0 ∧ arg = 0
  | .grate => sel = 0 ∧ cnt = 0 ∧ arg = 0

theorem exists_opcode {P : Opcode → Prop} :
    (∃ op, P op) ↔ P .init ∨ P .write ∨ P .isrdy ∨ P .smute ∨ P .gmute ∨ P .svol ∨ P .gvol ∨ P .gvrng ∨ P .grate := by
  constructor
  · rintro ⟨op, h⟩
    cases op <;> simp [h]
  · rintro (h | h | h | h | h | h | h | h | h) <;> exact ⟨_, h⟩

/-- The table of legal doublewords is the opcode table, row by row. -/
theorem legalCommand_iff {port : Port} {cw : DWord} :
    legalCommand port cw ↔ ∃ op, opcField cw = opcodeBits op ∧ opcodePort op = port ∧
      rowAdmits op (selField cw).toNat (cntField cw).toNat (argField cw).toNat := by
  rw [selField_toNat, cntField_toNat, argField_toNat, exists_opcode]
  simp only [← BitVec.toNat_inj, opcField_toNat]
  cases port <;> simp [legalCommand, opcodePort, opcodeBits, rowAdmits]

theorem exists_fmtSel_iff {sel : BitVec 8} : (∃ f, sel = fmtSel f) ↔
    sel.toNat = 0 ∨ sel.toNat = 1 ∨ sel.toNat = 2 ∨ sel.toNat = 3 ∨ sel.toNat = 6 ∨ sel.toNat = 7 := by
  constructor
  · rintro ⟨f, rfl⟩
    cases f <;> decide
  · rintro (h | h | h | h | h | h)
    · exact ⟨.m16, BitVec.eq_of_toNat_eq h⟩
    · exact ⟨.s16, BitVec.eq_of_toNat_eq h⟩
    · exact ⟨.m24r, BitVec.eq_of_toNat_eq h⟩
    · exact ⟨.s24r, BitVec.eq_of_toNat_eq h⟩
    · exact ⟨.m24l, BitVec.eq_of_toNat_eq h⟩
    · exact ⟨.s24l, BitVec.eq_of_toNat_eq h⟩

theorem exists_chanSel_iff {sel : BitVec 8} : (∃ ch, sel = chanSel ch) ↔ sel.toNat ≤ 2 := by
  constructor
  · rintro ⟨ch, rfl⟩
    cases ch <;> decide
  · intro h
    obtain h | h | h : sel.toNat = 0 ∨ sel.toNat = 1 ∨ sel.toNat = 2 := by omega
    · exact ⟨.ch0, BitVec.eq_of_toNat_eq h⟩
    · exact ⟨.ch1, BitVec.eq_of_toNat_eq h⟩
    · exact ⟨.master, BitVec.eq_of_toNat_eq h⟩

theorem exists_itemSel_iff {sel : BitVec 8} : (∃ item, sel = itemSel item) ↔ sel.toNat ≤ 2 := by
  constructor
  · rintro ⟨item, rfl⟩
    cases item <;> decide
  · intro h
    obtain h | h | h : sel.toNat = 0 ∨ sel.toNat = 1 ∨ sel.toNat = 2 := by omega
    · exact ⟨.min, BitVec.eq_of_toNat_eq h⟩
    · exact ⟨.max, BitVec.eq_of_toNat_eq h⟩
    · exact ⟨.res, BitVec.eq_of_toNat_eq h⟩

theorem flagArg_high_zero_iff {arg : BitVec 32} : arg.extractLsb' 1 31 = 0#31 ↔ arg.toNat ≤ 1 := by
  have := arg.isLt
  rw [← BitVec.toNat_inj, BitVec.extractLsb'_toNat, Nat.shiftRight_eq_div_pow, BitVec.toNat_ofNat]
  omega

theorem volArg_high_zero_iff {arg : BitVec 32} : arg.extractLsb' 16 16 = 0#16 ↔ arg.toNat < 2 ^ 16 := by
  have := arg.isLt
  rw [← BitVec.toNat_inj, BitVec.extractLsb'_toNat, Nat.shiftRight_eq_div_pow, BitVec.toNat_ofNat]
  omega

theorem toNat_eq_zero_iff {w : Nat} {x : BitVec w} : x = 0#w ↔ x.toNat = 0 := by
  simp [← BitVec.toNat_inj]

/-- The fields an operation accepts are those of its row. -/
theorem exists_decodeFields_iff {op : Opcode} {sel : BitVec 8} {cnt : BitVec 16} {arg : BitVec 32} :
    (∃ i, decodeFields op sel cnt arg = .ok i) ↔ rowAdmits op sel.toNat cnt.toNat arg.toNat := by
  cases op with
  | init => simp [decodeFields_init_eq_ok, rowAdmits, toNat_eq_zero_iff]
  | write => simp [decodeFields_write_eq_ok, exists_comm (α := Instr), rowAdmits, ← exists_fmtSel_iff]
  | isrdy => simp [decodeFields_isrdy_eq_ok, rowAdmits, toNat_eq_zero_iff]
  | smute =>
    rw [rowAdmits, ← flagArg_high_zero_iff, ← toNat_eq_zero_iff, ← exists_chanSel_iff]
    simp [decodeFields_smute_eq_ok]
  | gmute => simp [decodeFields_gmute_eq_ok, rowAdmits, toNat_eq_zero_iff, ← exists_chanSel_iff]
  | svol =>
    rw [rowAdmits, ← volArg_high_zero_iff, ← toNat_eq_zero_iff, ← exists_chanSel_iff]
    simp [decodeFields_svol_eq_ok]
  | gvol => simp [decodeFields_gvol_eq_ok, rowAdmits, toNat_eq_zero_iff, ← exists_chanSel_iff]
  | gvrng => simp [decodeFields_gvrng_eq_ok, rowAdmits, toNat_eq_zero_iff, ← exists_itemSel_iff]
  | grate => simp [decodeFields_grate_eq_ok, rowAdmits, toNat_eq_zero_iff]

/-- Settles O3: OPC names an operation of the port, and the other fields are those of its row. -/
theorem legalDoublewordsAreTheTable : Obligations.LegalDoublewordsAreTheTable := by
  intro port cw
  simp only [legalCommand_iff, ← exists_decodeFields_iff, decode_eq_ok_iff]
  constructor
  · rintro ⟨i, op, hopc, hport, h⟩
    exact ⟨op, hopc, hport, i, h⟩
  · rintro ⟨op, hopc, hport, i, h⟩
    exact ⟨i, op, hopc, hport, h⟩

end Sys2Proof
end

section
/-! The statements of 30_encoding.md about the ports: which doubleword a step accepts, what it then runs, and what it
answers. -/

namespace Sys2Proof.Machine

/-! ### Acceptance -/

theorem acceptWord_of_decode {port : Port} {cw : DWord} {i : Instr} (h : decode port cw = .ok i) (s : State) :
    acceptWord port cw s = exec i s := by
  rw [acceptWord, h]

/-- A doubleword that is no row of the table is answered ERR_ILLEGAL (30_encoding.md R98). -/
theorem acceptWord_of_not_legal {port : Port} {cw : DWord} (h : ¬ legalCommand port cw) (s : State) :
    acceptWord port cw s = .next (respond s port .errIllegal 0#32) := by
  rw [acceptWord]
  split
  · rename_i i hi
    exact absurd ((legalDoublewordsAreTheTable port cw).mp ⟨i, hi⟩) h
  · rfl

/-- The producer's turn with port P accepting: the first doubleword presented there is taken (30_encoding.md R91). -/
theorem step_accepts_portP {s : State} {cw : DWord} {rest : List DWord} {ts : List Turn}
    (hts : s.turns = .agent .producer :: ts) (hphase : s.wphase = .none) (hport : s.portP = cw :: rest) :
    step s = acceptWord .p cw { s with turns := ts, tick := s.tick + 1, portP := rest } := by
  rw [step_of_turns hts]
  simp only [takeTurn, agentTurn, producerTurn, acceptP, hphase, hport]

/-- The control context's turn: the first doubleword presented on port C is taken, at any time (30_encoding.md R90). -/
theorem step_accepts_portC {s : State} {cw : DWord} {rest : List DWord} {ts : List Turn}
    (hts : s.turns = .agent .control :: ts) (hport : s.portC = cw :: rest) :
    step s = acceptWord .c cw { s with turns := ts, tick := s.tick + 1, portC := rest } := by
  rw [step_of_turns hts]
  simp only [takeTurn, agentTurn, controlTurn, hport]

theorem responseWord_errIllegal : responseWord .errIllegal 0#32 = 0x0100000000000000#64 := by decide

theorem responseWord_ok_zero : responseWord .ok 0#32 = 0x0000000000000000#64 := by decide

/-- Settles O5: the port's agent takes the doubleword, and no row of the table decodes. -/
theorem illegalDoublewordIsAnswered : Obligations.IllegalDoublewordIsAnswered := by
  constructor
  · intro s cw rest ts hts hphase hport hbad
    rw [step_accepts_portP hts hphase hport, acceptWord_of_not_legal hbad, respond, responseWord_errIllegal]
  · intro s cw rest ts hts hport hbad
    rw [step_accepts_portC hts hport, acceptWord_of_not_legal hbad, respond, responseWord_errIllegal]

/-- Settles O6: the port's agent takes the doubleword, and a command decodes on its own port only. -/
theorem stepRunsAcceptedCommand : Obligations.StepRunsAcceptedCommand := by
  constructor
  · intro s cw rest ts i hts hphase hport hdec
    exact ⟨decode_port hdec, by rw [step_accepts_portP hts hphase hport, acceptWord_of_decode hdec]⟩
  · intro s cw rest ts i hts hport hdec
    exact ⟨decode_port hdec, by rw [step_accepts_portC hts hport, acceptWord_of_decode hdec]⟩

theorem decodeTableWord_eq_some {nbits w : Nat} {i : Instr} (h : decodeTableWord nbits w = some i) :
    decode (tablePort (tableWord nbits w)) (tableWord nbits w) = .ok i := by
  unfold decodeTableWord at h
  split at h
  · rename_i j hj
    rw [hj, Option.some.inj h]
  · simp at h

/-- Settles O7: presenting a doubleword sets up the acceptance of StepRunsAcceptedCommand on the command's port. -/
theorem fetchWordRunsNext : Obligations.FetchWordRunsNext := by
  intro s nbits w i h
  have hdec := decodeTableWord_eq_some h
  have hport := decode_port hdec
  obtain ⟨hp, hc⟩ := stepRunsAcceptedCommand
  rw [State.withFetchWord, ← hport]
  rw [← hport] at hdec
  refine ⟨fun hi => ?_, fun hi => ?_⟩ <;> rw [hi] at hdec ⊢
  · obtain ⟨-, hstep⟩ := hp (s.presenting .p (tableWord nbits w)) _ s.portP s.turns i rfl rfl rfl hdec
    exact hstep
  · obtain ⟨-, hstep⟩ := hc (s.presenting .c (tableWord nbits w)) _ s.portC s.turns i rfl rfl hdec
    exact hstep

/-! ### Port P while a WRITE is in progress -/

/-- `t` has on port P what `s` has: the doublewords presented and the responses sent. -/
def SamePortP (s t : State) : Prop := t.portP = s.portP ∧ t.respP = s.respP

theorem advanceEngine_samePortP (s : State) : SamePortP s (advanceEngine s) := by
  rw [advanceEngine_eq]
  split <;> exact ⟨rfl, rfl⟩

theorem clearDrained_samePortP (s : State) : SamePortP s (clearDrained s) := by
  rw [clearDrained_eq]
  split <;> simp [SamePortP]

theorem rearm_samePortP {s t : State} (h : rearm s = .ok t) : SamePortP s t := by
  obtain ⟨-, ⟨-, rfl⟩ | ⟨-, rfl⟩⟩ := rearm_eq_ok.mp h <;> exact ⟨rfl, rfl⟩

/-- With WPHASE not NONE only RESET and the publish step touch port P (30_encoding.md R91). -/
theorem Move.busy_portP {s t : State} {u : Turn} (m : Move s u t) (hbusy : s.wphase ≠ .none) (hreset : u ≠ .reset) :
    SamePortP s t ∨ (s.wphase = .publish ∧ u = .agent .producer ∧ t.wphase = .none ∧ t.portP = s.portP ∧
      t.respP = s.respP ++ [responseWord .ok 0#32]) := by
  cases m with
  | stay => exact .inl ⟨rfl, rfl⟩
  | reset => exact absurd rfl hreset
  | store a v => exact .inl ⟨rfl, rfl⟩
  | available yes => exact .inl ⟨rfl, rfl⟩
  | answerP _ _ _ hidle => exact absurd hidle hbusy
  | initNoEngine _ hidle => exact absurd hidle hbusy
  | initOk _ _ _ _ hidle => exact absurd hidle hbusy
  | writeAccepted _ _ _ _ hidle => exact absurd hidle hbusy
  | waited _ _ => exact .inl ⟨rfl, rfl⟩
  | filled w _ _ _ => exact .inl ⟨rfl, rfl⟩
  | publishedRunning hp _ => exact .inr ⟨hp, rfl, by simp, by simp, by simp⟩
  | publishedIdle hp _ _ => exact .inr ⟨hp, rfl, by simp, by simp, by simp⟩
  | answerC rest st v => exact .inl (by simp [SamePortP])
  | muted rest ch m => exact .inl (by simp [SamePortP])
  | volumeSet rest ch v => exact .inl (by simp [SamePortP])
  | wordMoved w _ _ _ _ => exact .inl (advanceEngine_samePortP (txPush s w))
  | completedIdle _ _ _ => exact .inl ⟨rfl, rfl⟩
  | completed t _ _ _ hr =>
    obtain ⟨hport, hresp⟩ := rearm_samePortP hr
    obtain ⟨hport', hresp'⟩ := clearDrained_samePortP { s with irqPend := false }
    exact .inl ⟨hport.trans hport', hresp.trans hresp'⟩

/-- Settles O8: each move a step can make with WPHASE not NONE leaves port P as it is, or is a publish step. -/
theorem busyPortAcceptsNothing : Obligations.BusyPortAcceptsNothing := by
  intro s t hbusy hreset hstep
  obtain ⟨hport, hresp⟩ | ⟨hp, hturn, hphase, hport, hresp⟩ := (step_move hstep).busy_portP hbusy hreset
  · exact ⟨hport, .inl hresp⟩
  · exact ⟨hport, .inr ⟨hp, hturn, hphase, responseWord_ok_zero ▸ hresp⟩⟩

/-! ### One response for each command -/

/-- `t` answers one doubleword on port P and none on port C, and the producer's phase is that of `s`. -/
def AnswersOnceP (s t : State) : Prop :=
  t.respC = s.respC ∧ t.wphase = s.wphase ∧ ∃ w, t.respP = s.respP ++ [w]

theorem answersOnceP_respond (s : State) (st : Status) (v : Word) : AnswersOnceP s (respond s .p st v) :=
  ⟨rfl, rfl, _, rfl⟩

theorem execInit_answersOnceP {r : Nat} {s t : State} (h : execInit r s = .next t) : AnswersOnceP s t := by
  obtain ⟨-, rfl⟩ | ⟨-, -, rfl⟩ | ⟨-, cd, md, -, hclaim⟩ := execInit_eq_next.mp h
  · exact answersOnceP_respond s _ _
  · exact answersOnceP_respond s _ _
  · obtain ⟨-, rfl⟩ | ⟨-, -, rfl⟩ | ⟨-, -, rfl⟩ := hclaim <;> exact ⟨rfl, rfl, _, rfl⟩

theorem execIsrdy_answersOnceP {s t : State} (h : execIsrdy s = .next t) : AnswersOnceP s t := by
  obtain ⟨st, v, rfl⟩ := execIsrdy_eq_next h
  exact answersOnceP_respond s st v

/-- WRITE answers an error at once, or answers nothing yet and waits (41_double_buffer.md R121). -/
theorem execWrite_answersOnceP_or_waits {f : Fmt} {ptr cnt : Nat} {s t : State} (h : execWrite f ptr cnt s = .next t) :
    AnswersOnceP s t ∨ (t.respC = s.respC ∧ t.respP = s.respP ∧ t.wphase = .wait) := by
  obtain ⟨st, rfl⟩ | ⟨-, -, -, -, -, rfl⟩ := execWrite_eq_next h
  · exact .inl (answersOnceP_respond s st _)
  · exact .inr ⟨rfl, rfl, rfl⟩

theorem exec_producer_answers {i : Instr} (hi : i.port = .p) {s t : State} (h : exec i s = .next t) :
    AnswersOnceP s t ∨
      ((∃ f ptr cnt, i = .write f ptr cnt) ∧ t.respC = s.respC ∧ t.respP = s.respP ∧ t.wphase = .wait) := by
  cases i with
  | init r => exact .inl (execInit_answersOnceP h)
  | write f ptr cnt => exact (execWrite_answersOnceP_or_waits h).imp_right fun hwait => ⟨⟨f, ptr, cnt, rfl⟩, hwait⟩
  | isrdy => exact .inl (execIsrdy_answersOnceP h)
  | _ => simp [Instr.port] at hi

theorem exec_control_answers {i : Instr} (hi : i.port = .c) {s t : State} (h : exec i s = .next t) :
    t.respP = s.respP ∧ ∃ w, t.respC = s.respC ++ [w] := by
  obtain ⟨v, rfl⟩ | ⟨ch, m, rfl⟩ | ⟨ch, v, rfl⟩ := exec_control_cases hi h <;> simp

/-- Settles O54: by the command's port, and on port P by the three commands there. -/
theorem oneResponsePerCommand : Obligations.OneResponsePerCommand := by
  intro i s t h
  refine ⟨fun hi => exec_control_answers hi h, fun hi => ?_⟩
  obtain ⟨hrespC, hphase, w, hrespP⟩ | ⟨hwrite, hrespC, hrespP, hphase⟩ := exec_producer_answers hi h
  · exact ⟨hrespC, .inl ⟨w, hrespP, hphase⟩⟩
  · exact ⟨hrespC, .inr ⟨hwrite, hrespP, hphase⟩⟩

end Sys2Proof.Machine
end

section
/-! SUPPORT. Runs of several turns, each kind of step of the producer as an equation, and the engine's transfer. -/

namespace Sys2Proof.Machine

/-! ### Several steps in a row -/

theorem stepsTo_succ {s t : State} (k : Nat) (h : step s = .next t) : stepsTo (k + 1) s = stepsTo k t := by
  rw [stepsTo, h]

/-- A run of `m + n` steps is a run of `n` steps from where the first `m` lead. -/
theorem stepsTo_add {m : Nat} {s t : State} (n : Nat) (h : stepsTo m s = some t) : stepsTo (m + n) s = stepsTo n t := by
  induction m generalizing s with
  | zero => rw [Nat.zero_add, Option.some.inj h]
  | succ m ih =>
    rw [stepsTo] at h
    cases hstep : step s with
    | next u => rw [Nat.succ_add, stepsTo_succ _ hstep, ih (by simpa only [hstep] using h)]
    | fault r => simp [hstep] at h
    | refused r => simp [hstep] at h

/-! ### The producer's turns -/

theorem step_producer {s : State} {ts : List Turn} (hts : s.turns = .agent .producer :: ts) :
    step s = producerTurn { s with turns := ts, tick := s.tick + 1 } := step_of_turns hts

/-- The wait step passes at a free target (41_double_buffer.md R123). -/
theorem step_wait_free {s : State} {ts : List Turn} (hts : s.turns = .agent .producer :: ts) (hp : s.wphase = .wait)
    (hfree : targetFree s = true) :
    step s = .next { s with turns := ts, tick := s.tick + 1, wt := tgt s, widx := 0, wphase := .fill } := by
  simp only [step_producer hts, producerTurn, hp]
  exact waitStep_eq_next.mpr (.inl ⟨hfree, rfl⟩)

/-- The producer is held while the target's flag is true (41_double_buffer.md R123). -/
theorem step_wait_held {s : State} {ts : List Turn} (hts : s.turns = .agent .producer :: ts) (hp : s.wphase = .wait)
    (hheld : targetFree s = false) : step s = .next { s with turns := ts, tick := s.tick + 1 } := by
  simp only [step_producer hts, producerTurn, hp]
  exact waitStep_eq_next.mpr (.inr ⟨hheld, rfl⟩)

/-- The fill step copies one word of STAGE (41_double_buffer.md R124). -/
theorem step_fill {s : State} {ts : List Turn} {w : Word} (hts : s.turns = .agent .producer :: ts)
    (hp : s.wphase = .fill) (hidx : s.widx < bufWords s.cfg) (hw : s.stage[s.widx]? = some w) :
    step s = .next { s with
      turns := ts, tick := s.tick + 1
      buf := writeCell s.buf (slotBase s.cfg s.wt + s.widx) w
      widx := s.widx + 1
      wphase := if s.widx + 1 = bufWords s.cfg then .publish else .fill } := by
  simp only [step_producer hts, producerTurn, hp]
  exact fillStep_eq_next.mpr ⟨w, hw, slotBase_add_lt hidx, rfl⟩

/-- What the publish step leaves, transmission running or not (41_double_buffer.md R125). -/
def published (s : State) : State :=
  { setReady s s.wt true with
    wphase := .none
    txState := if s.txState = .idle then drainOf s.wt else s.txState
    engAddr := if s.txState = .idle then BitVec.ofNat 32 (slotBase s.cfg s.wt) else s.engAddr
    engCnt := if s.txState = .idle then BitVec.ofNat 32 (bufWords s.cfg) else s.engCnt
    engBusy := if s.txState = .idle then true else s.engBusy
    respP := s.respP ++ [0x0000000000000000#64] }

/-- The publish step answers that state, given ARM's precondition where it arms. -/
theorem publishStep_eq_published {s : State} (hb : s.txState = .idle → s.engBusy = false) :
    publishStep s = .next (published s) := by
  rw [publishStep_eq_next]
  by_cases hx : s.txState = .idle
  · exact .inr ⟨hx, hb hx, by simp [published, respond, responseWord_ok_zero, hx]⟩
  · exact .inl ⟨hx, by simp [published, respond, responseWord_ok_zero, hx]⟩

theorem step_publish {s : State} {ts : List Turn} (hts : s.turns = .agent .producer :: ts) (hp : s.wphase = .publish)
    (hb : s.txState = .idle → s.engBusy = false) :
    step s = .next (published { s with turns := ts, tick := s.tick + 1 }) := by
  simp only [step_producer hts, producerTurn, hp]
  exact publishStep_eq_published hb

/-- ARM's precondition holds wherever the publish step arms (41_double_buffer.md R125). -/
theorem FlagsOk.not_busy_of_idle {s : State} (h : FlagsOk s) (hx : s.txState = .idle) : s.engBusy = false := by
  obtain ⟨-, -, hb, -⟩ := h.idle hx
  exact hb

@[simp] theorem published_cfg (s : State) : (published s).cfg = s.cfg := setReady_cfg s s.wt true
@[simp] theorem published_buf (s : State) : (published s).buf = s.buf := setReady_buf s s.wt true
@[simp] theorem published_active (s : State) : (published s).active = s.active := setReady_active s s.wt true
@[simp] theorem published_irqEn (s : State) : (published s).irqEn = s.irqEn := setReady_irqEn s s.wt true
@[simp] theorem published_smEn (s : State) : (published s).smEn = s.smEn := setReady_smEn s s.wt true
@[simp] theorem published_txOut (s : State) : (published s).txOut = s.txOut := setReady_txOut s s.wt true
@[simp] theorem published_turns (s : State) : (published s).turns = s.turns := setReady_turns s s.wt true

@[simp] theorem getReady_published (s : State) (i : Slot) :
    getReady (published s) i = if i = s.wt then true else getReady s i :=
  getReady_setReady s s.wt i true

theorem published_txState_ne_idle (s : State) : (published s).txState ≠ .idle := by
  simp only [published]
  split
  · exact drainOf_ne_idle _
  · assumption

/-- A publish step leaves transmission running, so the next target is the buffer that is not active. -/
theorem tgt_published (s : State) : tgt (published s) = otherSlot s.active := by
  rw [tgt_eq, if_neg (published_txState_ne_idle s), published_active]

/-! ### Buffer memory after a write -/

theorem slotBase_le (c : Config) (i : Slot) : slotBase c i ≤ bufWords c := by
  cases i <;> simp [slotBase]

/-- BufRead at an address looks at the configuration and at that one cell. -/
theorem bufRead_congr_cell {s t : State} {a : Nat} (hc : t.cfg = s.cfg) (hb : readCell t.buf a = readCell s.buf a) :
    bufRead t a = bufRead s a := by
  rw [bufRead, bufRead, hc, hb]

/-- A word listed in a transmit buffer is what BufRead gives there. -/
theorem bufRead_slot {s : State} {i : Slot} {j : Nat} {w : Word} (hj : j < bufWords s.cfg)
    (hw : readCell s.buf (slotBase s.cfg i + j) = some w) : bufRead s (slotBase s.cfg i + j) = .ok w :=
  bufRead_eq_ok.mpr (.inl ⟨slotBase_add_lt hj, hw⟩)

/-- A memory with the words `ws` stored from address `b` on, in ascending order. -/
def storeBlock (m : Memory 32) (b : Nat) : List Word → Memory 32
  | [] => m
  | w :: ws => storeBlock (writeCell m b w) (b + 1) ws

theorem readCell_storeBlock_other (m : Memory 32) (b : Nat) {a : Nat} (ws : List Word)
    (h : ∀ j, j < ws.length → a ≠ b + j) : readCell (storeBlock m b ws) a = readCell m a := by
  induction ws generalizing m b with
  | nil => rfl
  | cons w ws ih =>
    rw [storeBlock, ih _ _ fun j hj => by have := h (j + 1) (Nat.succ_lt_succ hj); omega]
    exact readCell_writeCell_other m w (h 0 (Nat.succ_pos _))

theorem readCell_storeBlock (m : Memory 32) (b : Nat) {j : Nat} {ws : List Word} {w : Word} (h : ws[j]? = some w) :
    readCell (storeBlock m b ws) (b + j) = some w := by
  induction ws generalizing m b j with
  | nil => simp at h
  | cons v ws ih =>
    cases j with
    | zero =>
      rw [storeBlock, readCell_storeBlock_other _ _ _ (fun k _ => by omega), Nat.add_zero, readCell_writeCell_same]
      simpa using h
    | succ j => rw [storeBlock, ← ih (writeCell m b v) (b + 1) (by simpa using h), Nat.add_right_comm, Nat.add_assoc]

/-! ### A WRITE from the wait step to its answer -/

/-- The next word of a list, and what follows it. -/
theorem exists_getElem?_and_drop {ws : List Word} {k : Nat} (h : k < ws.length) :
    ∃ w, ws[k]? = some w ∧ ws.drop k = w :: ws.drop (k + 1) :=
  ⟨ws[k], List.getElem?_eq_getElem h, List.drop_eq_getElem_cons h⟩

/-- `n + 1` fill turns copy the last `n + 1` words of STAGE, and the producer then publishes. -/
theorem stepsTo_fill {n : Nat} {s : State} {ts : List Turn} (hp : s.wphase = .fill)
    (hidx : s.widx + (n + 1) = bufWords s.cfg) (hlen : s.stage.length = bufWords s.cfg)
    (hts : s.turns = List.replicate (n + 1) (.agent .producer) ++ ts) :
    stepsTo (n + 1) s = some { s with
      buf := storeBlock s.buf (slotBase s.cfg s.wt + s.widx) (s.stage.drop s.widx)
      widx := bufWords s.cfg, wphase := .publish
      turns := ts, tick := s.tick + (n + 1) } := by
  induction n generalizing s with
  | zero =>
    obtain ⟨w, hw, hdrop⟩ := exists_getElem?_and_drop (show s.widx < s.stage.length by omega)
    have hend : s.stage.drop (s.widx + 1) = [] := List.drop_eq_nil_of_le (by omega)
    rw [stepsTo_succ _ (step_fill hts hp (by omega) hw), hdrop, hend, if_pos hidx, hidx]
    rfl
  | succ n ih =>
    obtain ⟨w, hw, hdrop⟩ := exists_getElem?_and_drop (show s.widx < s.stage.length by omega)
    have hstep := step_fill hts hp (by omega) hw
    rw [if_neg (by omega)] at hstep
    rw [stepsTo_succ _ hstep, ih]
    · simp only [hdrop, storeBlock, Nat.add_assoc, Nat.add_comm 1]
    · rfl
    · simp only
      omega
    · exact hlen
    · rfl

/-- The producer at its publish step, the block of STAGE being in the target buffer and `rest` scheduled. -/
def blockFilled (s : State) (rest : List Turn) : State :=
  { s with
    buf := storeBlock s.buf (slotBase s.cfg (tgt s)) s.stage
    wt := tgt s, widx := bufWords s.cfg, wphase := .publish
    turns := rest, tick := s.tick + (bufWords s.cfg + 2) }

/-- With its target free a WRITE passes the wait step, fills the target and publishes it, in W + 2 producer turns. -/
theorem SafeState.stepsTo_write {s : State} {rest : List Turn} (h : SafeState s) (hp : s.wphase = .wait)
    (hfree : targetFree s = true)
    (hts : s.turns = List.replicate (bufWords s.cfg + 2) (.agent .producer) ++ rest) :
    stepsTo (bufWords s.cfg + 2) s = some (published (blockFilled s rest)) := by
  have hlen := h.write.stageFull (.inl hp)
  obtain ⟨n, hn⟩ := Nat.exists_eq_add_of_le' (bufWords_bounds h.config).1
  have hturns : s.turns =
      .agent .producer :: (List.replicate (n + 1) (.agent .producer) ++ .agent .producer :: rest) := by
    rw [hts, hn, List.replicate_succ, List.replicate_succ']
    simp
  have hfill := stepsTo_fill (n := n) (s := { s with
    turns := List.replicate (n + 1) (.agent .producer) ++ .agent .producer :: rest
    tick := s.tick + 1, wt := tgt s, widx := 0, wphase := .fill }) rfl (by simp only; omega) hlen rfl
  rw [hn, stepsTo_succ _ (step_wait_free hturns hp hfree), stepsTo_add 1 hfill,
    stepsTo_succ 0 (t := published (blockFilled s rest))]
  · rfl
  · refine (step_publish rfl rfl (by exact h.flags.not_busy_of_idle)).trans ?_
    simp [blockFilled, hn, Nat.add_assoc, Nat.add_comm 1]

/-! ### The transfer -/

/-- The engine's turn pushes the word at ENG_ADDR and the engine moves on (42_transmitter_binding.md R157). -/
theorem step_engine_word {s : State} {ts : List Turn} {w : Word} (hts : s.turns = .agent .engine :: ts)
    (hb : s.engBusy = true) (hsm : s.smEn = true) (hn : s.engCnt ≠ 0#32) (hw : bufRead s s.engAddr.toNat = .ok w) :
    step s = .next (advanceEngine (txPush { s with turns := ts, tick := s.tick + 1 } w)) := by
  simp only [step_of_turns hts, takeTurn, agentTurn, engineTurn, engineEnabled, hb, hsm, Bool.and_self, if_true]
  exact engineWord_eq_next.mpr ⟨hn, w, hw, rfl⟩

/-- A word step with more words to move. -/
theorem step_engine_more {s : State} {ts : List Turn} {w : Word} (hts : s.turns = .agent .engine :: ts)
    (hb : s.engBusy = true) (hsm : s.smEn = true) (hn : 1 < s.engCnt.toNat) (hw : bufRead s s.engAddr.toNat = .ok w) :
    step s = .next { s with
      turns := ts, tick := s.tick + 1, txOut := s.txOut ++ [w]
      engAddr := s.engAddr + 1#32, engCnt := s.engCnt - 1#32 } := by
  have hmore : s.engCnt - 1#32 ≠ 0#32 := by bv_omega
  rw [step_engine_word hts hb hsm (by bv_omega) hw, advanceEngine_eq, if_neg (by exact hmore)]
  rfl

/-- The word step that ends the transfer. -/
theorem step_engine_last {s : State} {ts : List Turn} {w : Word} (hts : s.turns = .agent .engine :: ts)
    (hb : s.engBusy = true) (hsm : s.smEn = true) (hn : s.engCnt.toNat = 1) (hw : bufRead s s.engAddr.toNat = .ok w) :
    step s = .next { s with
      turns := ts, tick := s.tick + 1, txOut := s.txOut ++ [w]
      engAddr := s.engAddr + 1#32, engCnt := 0#32, engBusy := false
      irqPend := if s.irqEn then true else s.irqPend } := by
  have hlast : s.engCnt - 1#32 = 0#32 := by bv_omega
  rw [step_engine_word hts hb hsm (by bv_omega) hw, advanceEngine_eq, if_pos (by exact hlast), ← hlast]
  rfl

/-- With the state machine and the interrupt enabled, as many engine turns as words remain push those words in ascending
address order, end the transfer and make its completion pending (42_transmitter_binding.md R157, R159). -/
theorem stepsTo_transfer {s : State} {ws : List Word} {rest : List Turn} (hb : s.engBusy = true) (hsm : s.smEn = true)
    (hirq : s.irqEn = true) (hpos : 1 ≤ ws.length) (hlen : ws.length = s.engCnt.toNat)
    (hmap : s.engAddr.toNat + ws.length < 2 ^ 32)
    (hread : ∀ j w, ws[j]? = some w → bufRead s (s.engAddr.toNat + j) = .ok w)
    (hts : s.turns = List.replicate ws.length (.agent .engine) ++ rest) :
    stepsTo ws.length s = some { s with
      txOut := s.txOut ++ ws
      engAddr := BitVec.ofNat 32 (s.engAddr.toNat + ws.length), engCnt := 0#32, engBusy := false, irqPend := true
      turns := rest, tick := s.tick + ws.length } := by
  induction ws generalizing s with
  | nil => simp at hpos
  | cons w ws ih =>
    have hw : bufRead s s.engAddr.toNat = .ok w := hread 0 w rfl
    cases ws with
    | nil =>
      rw [List.length_singleton, stepsTo_succ 0 (step_engine_last hts hb hsm hlen.symm hw)]
      simp [stepsTo, hirq, BitVec.ofNat_add]
    | cons v ws =>
      rw [List.length_cons] at hlen hmap ⊢
      have haddr : (s.engAddr + 1#32).toNat = s.engAddr.toNat + 1 := by bv_omega
      have hmore : 1 < s.engCnt.toNat := by
        rw [List.length_cons] at hlen
        omega
      rw [stepsTo_succ _ (step_engine_more hts hb hsm hmore hw), ih]
      · simp only [haddr, List.append_assoc, List.singleton_append, Nat.add_assoc, Nat.add_comm 1]
      · exact hb
      · exact hsm
      · exact hirq
      · exact Nat.succ_pos _
      · simp only
        bv_omega
      · simp only [haddr]
        omega
      · intro j u hu
        simp only [haddr, Nat.add_right_comm _ 1 j]
        exact hread (j + 1) u hu
      · rfl

end Sys2Proof.Machine
end

section
/-! The statements of 41_double_buffer.md: the producer's wait, fill and publish steps, ISRDY, what a handler step and a
publish step leave for the next WRITE, and the whole WRITE up to the transfer of its block. -/

namespace Sys2Proof.Machine

/-! ### One step -/

theorem targetFree_iff {s : State} : targetFree s = true ↔ getReady s (tgt s) = false := by
  rw [targetFree, Bool.not_eq_true']

theorem targetFree_false_iff {s : State} : targetFree s = false ↔ getReady s (tgt s) = true := by
  rw [targetFree, Bool.not_eq_false']

/-- Settles O25: the target the statement writes out is the model's `tgt`. -/
theorem waitStepHoldsOrPasses : Obligations.WaitStepHoldsOrPasses := by
  intro s ts hts hp
  rw [← tgt_eq]
  exact ⟨fun hr => step_wait_free hts hp (targetFree_iff.mpr hr),
    fun hr => step_wait_held hts hp (targetFree_false_iff.mpr hr)⟩

/-- Settles O26: the fill step writes one cell, so BufRead gives the new word there and the old one anywhere else. -/
theorem fillStepStoresOneWord : Obligations.FillStepStoresOneWord := by
  intro s ts w hts hp hidx hw
  refine ⟨_, step_fill hts hp hidx hw, rfl, ?_, fun a ha => ?_, fun hwf => ?_⟩
  · exact bufRead_slot hidx (readCell_writeCell_same _ _ _)
  · exact bufRead_congr_cell rfl (readCell_writeCell_other _ _ ha)
  · exact Memory.wf_writeCell _ _ _ hwf

theorem slotBase_eq_ite (c : Config) (i : Slot) : slotBase c i = if i = .a then 0 else bufWords c := by
  cases i <;> rfl

theorem drainOf_eq_ite (i : Slot) : drainOf i = if i = .a then .drainA else .drainB := by
  cases i <;> rfl

/-- Settles O27: the publish step leaves `published`, by TXSTATE. -/
theorem publishStepSetsFlagAndStarts : Obligations.PublishStepSetsFlagAndStarts := by
  intro s ts hts hp
  refine ⟨fun hx => ?_, fun hx hb => ?_⟩
  · rw [step_publish hts hp fun h => absurd h hx]
    simp [published, hx]
  · rw [step_publish hts hp fun _ => hb]
    simp [published, hx, slotBase_eq_ite, drainOf_eq_ite]

theorem responseWord_boolValue (b : Bool) :
    responseWord .ok (boolValue b) = if b then 0x0000000000000001#64 else 0x0000000000000000#64 := by
  cases b <;> decide

/-- Settles O28: ISRDY's branches in the order of its rule. -/
theorem isrdyReportsTarget : Obligations.IsrdyReportsTarget := by
  refine ⟨decode_of_encode (i := .isrdy) (by decide) rfl (by decide), fun s => ?_⟩
  have hfailed : responseWord .errFailed 0#32 = 0x0300000000000000#64 := by decide
  have hnotInit : responseWord .errNotInit 0#32 = 0x0400000000000000#64 := by decide
  rw [← tgt_eq]
  refine ⟨fun hf => ?_, fun hf hi => ?_, fun hf hi hr => ?_, fun hf hi hr => ?_⟩
  · simp [exec, execIsrdy, respond, hf, hfailed]
  · simp [exec, execIsrdy, respond, hf, hi, hnotInit]
  · simp [exec, execIsrdy, respond, hf, hi, targetFree_iff.mpr hr, responseWord_boolValue]
  · simp [exec, execIsrdy, respond, hf, hi, targetFree_false_iff.mpr hr, responseWord_boolValue]

/-! ### What a step leaves for the next WRITE -/

/-- With nothing running no buffer is ready, so that no WRITE is held (41_double_buffer.md R126 (a)). -/
theorem FlagsOk.getReady_of_idle {s : State} (h : FlagsOk s) (hx : s.txState = .idle) (i : Slot) :
    getReady s i = false := by
  obtain ⟨h0, h1, -, -⟩ := h.idle hx
  cases i
  · exact h0
  · exact h1

/-- After the handler's rearm the target is free: it is the drained buffer, or the one found not ready. -/
theorem targetFree_rearm {s t : State} (hdrained : getReady s s.active = false) (h : rearm s = .ok t) :
    targetFree t = true := by
  rw [targetFree_iff, tgt_eq]
  obtain ⟨-, ⟨-, rfl⟩ | ⟨hother, rfl⟩⟩ := rearm_eq_ok.mp h
  · rw [if_neg (drainOf_ne_idle _), otherSlot_otherSlot]
    exact hdrained
  · exact hother

/-- Settles O29: a handler step of a safe state has a transfer behind it, whose buffer's flag it clears. -/
theorem handlerFreesTarget : Obligations.HandlerFreesTarget := by
  intro s t h hturn hen hstep
  have hsafe := h.startTurn
  rw [step, hturn, takeTurn, agentTurn, handlerTurn, if_pos (by exact hen), takeCompletion_eq_next] at hstep
  obtain ⟨hpend, -⟩ := Bool.and_eq_true_iff.mp hen
  have hx : (startTurn s).txState ≠ .idle := h.flags.running_of_pending hpend
  obtain ⟨hi, -⟩ | ⟨-, hr⟩ := hstep
  · exact absurd hi hx
  · have hflags : FlagsOk { startTurn s with irqPend := false } :=
      { hsafe.flags with idle := fun hi => absurd hi hx }
    rw [clearDrained_of_running hflags hx] at hr
    exact targetFree_rearm (by simp) hr

/-- Settles O30: after a publish step the target is the buffer that is not active, which is the one not published if
transmission was idle and the one just published if it was running. -/
theorem nextBlockGoesToOtherBuffer : Obligations.NextBlockGoesToOtherBuffer := by
  intro s t h hp hturn hstep
  have hsafe := h.startTurn
  have hphase : (startTurn s).wphase = .publish := hp
  simp only [step, hturn, takeTurn, agentTurn, producerTurn, hphase] at hstep
  rw [publishStep_eq_published hsafe.flags.not_busy_of_idle, next_eq_next] at hstep
  subst hstep
  have hready : getReady (published (startTurn s)) s.wt = true := (getReady_published _ _).trans (if_pos rfl)
  refine ⟨hready, fun hx => ?_, fun hx => ?_⟩
  · have hwt := h.flags.idleTarget hx (.inr hp)
    have htgt : tgt (published (startTurn s)) = otherSlot s.wt := hwt ▸ tgt_published (startTurn s)
    have hother : getReady (published (startTurn s)) (otherSlot s.wt) = false :=
      (getReady_published _ _).trans ((if_neg (otherSlot_ne _)).trans (hsafe.flags.getReady_of_idle hx _))
    exact ⟨htgt, targetFree_iff.mpr (htgt ▸ hother)⟩
  · have hwt := h.flags.runningTarget hx (.inr hp)
    have htgt : tgt (published (startTurn s)) = s.wt := hwt ▸ tgt_published (startTurn s)
    exact ⟨htgt, targetFree_false_iff.mpr (htgt ▸ hready)⟩

/-! ### A whole WRITE -/

/-- The word of STAGE at `j` stands at word `j` of the target once the block is published. -/
theorem bufRead_published_block {s : State} {rest : List Turn} {j : Nat} {w : Word}
    (hlen : s.stage.length = bufWords s.cfg) (hw : s.stage[j]? = some w) :
    bufRead (published (blockFilled s rest)) (slotBase s.cfg (tgt s) + j) = .ok w := by
  obtain ⟨hj, -⟩ := List.getElem?_eq_some_iff.mp hw
  have hcell : readCell (published (blockFilled s rest)).buf (slotBase s.cfg (tgt s) + j) = some w := by
    rw [published_buf]
    exact readCell_storeBlock _ _ hw
  have hcfg : (published (blockFilled s rest)).cfg = s.cfg := published_cfg _
  rw [← hcfg] at hcell ⊢
  exact bufRead_slot (by rw [hcfg]; omega) hcell

/-- A word outside the target is not touched. -/
theorem bufRead_published_other {s : State} {rest : List Turn} {a : Nat}
    (ha : ∀ j, j < s.stage.length → a ≠ slotBase s.cfg (tgt s) + j) :
    bufRead (published (blockFilled s rest)) a = bufRead s a := by
  refine bufRead_congr_cell (published_cfg _) ?_
  rw [published_buf]
  exact readCell_storeBlock_other _ _ _ ha

/-- Settles O42: W + 2 producer turns lead to `published (blockFilled s rest)`, read off element by element. -/
theorem writeRunsToPublish : Obligations.WriteRunsToPublish := by
  intro s rest h hp hfree hts
  have hlen := h.write.stageFull (.inl hp)
  refine ⟨_, h.stepsTo_write hp hfree hts, rfl, published_turns _, rfl, ?_, ?_, fun j hj => ?_, fun a ha => ?_,
    fun hx => ⟨if_pos hx, if_pos hx, if_pos hx, if_pos hx⟩,
    fun hx => ⟨if_neg hx, if_neg hx, if_neg hx, if_neg hx, published_active _⟩⟩
  · exact (getReady_published _ _).trans (if_pos rfl)
  · exact (getReady_published _ _).trans (if_neg (otherSlot_ne _))
  · exact ⟨_, List.getElem?_eq_getElem (hlen ▸ hj), bufRead_published_block hlen (List.getElem?_eq_getElem _)⟩
  · exact bufRead_published_other (hlen ▸ ha)

/-- The publish step that starts transmission leaves a transfer of the W words of the target in flight. -/
theorem published_engine {s : State} {rest : List Turn} (hc : s.cfg.valid = true) (hx : s.txState = .idle) :
    (published (blockFilled s rest)).engBusy = true ∧
    (published (blockFilled s rest)).engCnt.toNat = bufWords s.cfg ∧
    (published (blockFilled s rest)).engAddr.toNat = slotBase s.cfg (tgt s) := by
  obtain ⟨-, hmap⟩ := bufWords_bounds hc
  have hbase := slotBase_le s.cfg (tgt s)
  have hcnt : (published (blockFilled s rest)).engCnt = BitVec.ofNat 32 (bufWords s.cfg) := if_pos hx
  have haddr : (published (blockFilled s rest)).engAddr = BitVec.ofNat 32 (slotBase s.cfg (tgt s)) := if_pos hx
  rw [hcnt, haddr, BitVec.toNat_ofNat, BitVec.toNat_ofNat]
  exact ⟨if_pos hx, Nat.mod_eq_of_lt (by omega), Nat.mod_eq_of_lt (by omega)⟩

/-- Settles O43: the block is published into the active buffer, and the transfer armed on it moves its W words. -/
theorem firstBlockIsTransmitted : Obligations.FirstBlockIsTransmitted := by
  intro s rest h hp hx hi hts
  have hlen := h.write.stageFull (.inl hp)
  obtain ⟨hpos, hmap⟩ := bufWords_bounds h.config
  obtain ⟨hirq, hsm, -⟩ := h.lifecycle.enabled hi
  have hwrite := h.stepsTo_write hp (targetFree_iff.mpr (h.flags.getReady_of_idle hx _)) hts
  obtain ⟨hbusy, hcnt, haddr⟩ :=
    published_engine (rest := List.replicate (bufWords s.cfg) (.agent .engine) ++ rest) h.config hx
  have hbase := slotBase_le s.cfg (tgt s)
  have hread := fun j w hw => bufRead_published_block
    (rest := List.replicate (bufWords s.cfg) (.agent .engine) ++ rest) (j := j) (w := w) hlen hw
  rw [← haddr] at hread
  have htransfer := stepsTo_transfer hbusy ((published_smEn _).trans hsm) ((published_irqEn _).trans hirq)
    (by omega) (hlen.trans hcnt.symm) (by omega) hread ((published_turns _).trans (by rw [hlen]; rfl))
  rw [hlen] at htransfer
  refine ⟨_, (stepsTo_add _ hwrite).trans htransfer, ?_, rfl, rfl, rfl⟩
  exact congrArg (· ++ s.stage) (published_txOut _)

end Sys2Proof.Machine
end

section
/-! The statements of 42_transmitter_binding.md: INIT with a rate the clock configurator accepts, one word step of the
engine, a whole transfer, and what reaches TXOUT. -/

namespace Sys2Proof.Machine

/-! ### INIT -/

/-- A divider is answered exactly where it is representable (45_clock_configurator.md R250). -/
theorem fixedDivider_eq (c : Config) (den : Nat) :
    fixedDivider c den =
      if representable (c.sysClkHz * 2 ^ 8 / den) then some (c.sysClkHz * 2 ^ 8 / den) else none := by
  have hiff : representable (c.sysClkHz * 2 ^ 8 / den) ↔
      ¬(c.sysClkHz * 2 ^ 8 / den < 2 ^ 8 ∨ 2 ^ 24 ≤ c.sysClkHz * 2 ^ 8 / den) := by
    rw [not_or, not_lt, not_le]
  simp only [hiff, ite_not]
  rfl

/-- CLOCKCFG in one line: the two dividers of 45_clock_configurator.md R250, or none. -/
theorem clockCfg_eq (c : Config) (r : Nat) :
    clockCfg c r =
      if rateAccepted c r then
        some (BitVec.ofNat 24 (serialDivider c r),
          if c.hasMclk then BitVec.ofNat 24 (masterDivider c r) else 0#24)
      else none := by
  have hserial : fixedDivider c (serialCycles c r) =
      if representable (serialDivider c r) then some (serialDivider c r) else none := fixedDivider_eq c _
  have hmaster : fixedDivider c (r * c.mclkMult) =
      if representable (masterDivider c r) then some (masterDivider c r) else none := fixedDivider_eq c _
  rw [clockCfg, hserial, hmaster]
  by_cases hr : r = 0
  · rw [if_pos hr, if_neg fun ⟨h, _⟩ => h hr]
  rw [if_neg hr]
  by_cases hs : representable (serialDivider c r)
  · rw [if_pos hs]
    by_cases hm : c.hasMclk = true
    · by_cases hmd : representable (masterDivider c r)
      · have hrate : rateAccepted c r := ⟨hr, hs, fun _ => hmd⟩
        simp only [if_pos hm, if_pos hmd, if_pos hrate]
      · have hrate : ¬ rateAccepted c r := fun ⟨_, _, h⟩ => hmd (h hm)
        simp only [if_pos hm, if_neg hmd, if_neg hrate]
    · have hrate : rateAccepted c r := ⟨hr, hs, fun h => absurd h hm⟩
      simp only [if_neg hm, if_pos hrate]
  · have hrate : ¬ rateAccepted c r := fun ⟨_, h, _⟩ => hs h
    simp only [if_neg hs, if_neg hrate]

/-- INIT claims an engine once and keeps it (42_transmitter_binding.md R152): with one claimed or available it answers
OK from the restart with the engine claimed. -/
theorem execInit_ok {s : State} {r : Nat} {cd md : Divider} (hf : s.failed = false)
    (hclk : clockCfg s.cfg r = some (cd, md)) (he : s.engineClaimed = true ∨ s.engineAvailable = true) :
    execInit r s = .next (respond (restart { s with engineClaimed := true } r cd md) .p .ok 0#32) := by
  refine execInit_eq_next.mpr (.inr (.inr ⟨hf, cd, md, hclk, ?_⟩))
  cases hc : s.engineClaimed
  · exact .inr (.inl ⟨rfl, he.resolve_left (by simp [hc]), rfl⟩)
  · have hkept : { s with engineClaimed := true } = s := by rw [← hc]
    exact .inl ⟨rfl, by rw [hkept]⟩

/-- Settles O9: the rate has both dividers, and the restart is the record the statement writes out. -/
theorem initRestartsTransmitPath : Obligations.InitRestartsTransmitPath := by
  intro s r _ hf hrate he
  have hclk := (clockCfg_eq s.cfg r).trans (if_pos hrate)
  rw [exec, execInit_ok hf hclk he, respond, responseWord_ok_zero]
  rfl

/-! ### The engine -/

/-- Settles O37: a word step with more words to move, and the one that ends the transfer. -/
theorem engineMovesOneWord : Obligations.EngineMovesOneWord :=
  fun _ _ hts => ⟨fun _ hb hsm hw hn => step_engine_more hts hb hsm hn hw,
    fun _ hb hsm hw hn => step_engine_last hts hb hsm hn hw⟩

/-- The transfer in flight ends inside the 32 bits of ENG_ADDR (10_state.md R33, 20_memory.md R63). -/
theorem SafeState.transfer_end_lt {s : State} (h : SafeState s) (hb : s.engBusy = true) :
    s.engAddr.toNat + s.engCnt.toNat < 2 ^ 32 := by
  have hend := h.engine.addrBound hb
  have hbase := transferBase_le s
  obtain ⟨-, hmap⟩ := bufWords_bounds h.config
  unfold silenceBase at hbase
  omega

/-- Settles O41: while a transfer is in flight the state machine and the interrupt are enabled and words remain. -/
theorem transferMovesRemainingWords : Obligations.TransferMovesRemainingWords := by
  intro s ws rest h hb hlen hread hts
  have hinit := h.lifecycle.inited_of_running (h.flags.running_of_busy hb)
  obtain ⟨hirq, hsm, -⟩ := h.lifecycle.enabled hinit
  have hpos := h.engine.countPositive hb
  have hmap := h.transfer_end_lt hb
  rw [← hlen] at hpos hmap
  exact stepsTo_transfer hb hsm hirq hpos hlen hmap hread hts

/-! ### What reaches TXOUT -/

@[simp] theorem advanceEngine_txOut (s : State) : (advanceEngine s).txOut = s.txOut := by
  rw [advanceEngine_eq]
  split <;> rfl

@[simp] theorem clearDrained_txOut (s : State) : (clearDrained s).txOut = s.txOut := by
  rw [clearDrained_eq]
  split <;> simp

theorem rearm_txOut {s t : State} (h : rearm s = .ok t) : t.txOut = s.txOut := by
  obtain ⟨-, ⟨-, rfl⟩ | ⟨-, rfl⟩⟩ := rearm_eq_ok.mp h <;> rfl

/-- Of all moves only the engine's word step and RESET change TXOUT (42_transmitter_binding.md R158). -/
theorem Move.txOut_cases {s t : State} {u : Turn} (m : Move s u t) :
    t.txOut = s.txOut ∨
    (u = .agent .engine ∧ ∃ w, bufRead s s.engAddr.toNat = .ok w ∧ t.txOut = s.txOut ++ [w]) ∨
    (u = .reset ∧ t.txOut = []) := by
  cases m with
  | wordMoved w _ _ _ hr => exact .inr (.inl ⟨rfl, w, hr, by simp⟩)
  | reset => exact .inr (.inr ⟨rfl, rfl⟩)
  | completed _ _ _ _ hr => exact .inl ((rearm_txOut hr).trans (clearDrained_txOut _))
  | _ => exact .inl (by simp)

/-- Settles O51: a step is a move from the state in which its turn starts, where TXOUT, ENG_ADDR and the buffer memory
are those of the state before it. -/
theorem onlyEngineWritesTxOut : Obligations.OnlyEngineWritesTxOut :=
  fun _ _ hstep => (step_move hstep).txOut_cases

end Sys2Proof.Machine
end

section
/-! The statements of 43_gain_smoothing.md about DB2LIN (R184): each of P1 to P4, from one integer to the next. -/

namespace Sys2Proof.Machine

/-! ### DB2LIN from one integer to the next -/

@[simp] theorem db2lin_natCast (c : Config) (n : Nat) : db2lin c n = db2linUp c n := rfl

@[simp] theorem db2lin_neg_natCast (c : Config) (n : Nat) : db2lin c (-n) = db2linDown c n := by
  cases n <;> rfl

theorem db2lin_natCast_add_one (c : Config) (n : Nat) : db2lin c (n + 1) = gainAbove c n (db2lin c n) := rfl

theorem db2lin_neg_natCast_sub_one (c : Config) (n : Nat) :
    db2lin c (-n - 1) = gainBelow c (-n) (db2lin c (-n)) := by
  have hsucc : (-n - 1 : Int) = -((n + 1 : Nat) : Int) := by omega
  rw [hsucc, db2lin_neg_natCast, db2lin_neg_natCast, db2linDown_succ]

/-! ### P2 -/

theorem db2lin_lt_succ (c : Config) (a : Int) : db2lin c a < db2lin c (a + 1) := by
  cases a with
  | ofNat n => exact gainAbove_gt c n (db2lin_pos c n)
  | negSucc n =>
    have hsub : Int.negSucc n = -n - 1 := by omega
    rw [hsub, Int.sub_add_cancel, db2lin_neg_natCast_sub_one]
    exact (gainBelow_lt c (-n) (db2lin_pos c (-n))).2

theorem db2lin_strictMono (c : Config) : StrictMono (db2lin c) :=
  strictMono_int_of_lt_succ (db2lin_lt_succ c)

theorem db2lin_le_one (c : Config) {a : Int} (h : a ≤ 0) : db2lin c a ≤ 1 :=
  db2lin_zero c ▸ (db2lin_strictMono c).monotone h

/-- Settles O19: P1 is the value at 0, P2 and P3 hold of each step away from it. -/
theorem dbToLinearLaws : Obligations.DbToLinearLaws :=
  fun c => ⟨db2lin_zero c, fun _ _ h => db2lin_strictMono c h, db2lin_pos c⟩

/-! ### P4 -/

theorem db2linEps_pos_of_valid {c : Config} (h : c.valid = true) : 0 < c.db2linEps := by
  simp only [Config.valid, Bool.and_eq_true, decide_eq_true_eq] at h
  exact h.2

/-- P4 in its form without a root, kept by each step up and each step down. -/
theorem withinTolerance_db2lin {c : Config} (he : 0 < c.db2linEps) (a : Int) :
    withinTolerance c.db2linEps (db2lin c a) a := by
  induction a with
  | zero => exact withinTolerance_one he
  | succ n ih =>
    rw [db2lin_natCast_add_one]
    exact gainAbove_within c n he (db2lin_pos c n) ih
  | pred n ih =>
    rw [db2lin_neg_natCast_sub_one]
    exact gainBelow_within c (-n) he (db2lin_pos c (-n)) ih

/-- The exact conversion of R184. -/
noncomputable def exactGain (a : Int) : ℝ := 10 ^ ((a : ℝ) / 5120)

theorem exactGain_pos (a : Int) : 0 < exactGain a := Real.rpow_pos_of_pos (by norm_num) _

/-- The root that `withinTolerance` does without. -/
theorem exactGain_pow (a : Int) : exactGain a ^ dbDecade = 10 ^ a := by
  have hexp : (a : ℝ) / 5120 * (dbDecade : ℝ) = a := by norm_num [dbDecade]
  rw [exactGain, ← Real.rpow_natCast, ← Real.rpow_mul (by norm_num), hexp, Real.rpow_intCast]

/-- The same bounds over the reals, with the root. -/
theorem pow_le_of_withinTolerance {eps q : Rat} {a : Int} (h : withinTolerance eps q a) :
    (q : ℝ) ^ dbDecade ≤ ((1 + eps) * exactGain a) ^ dbDecade ∧
    (eps < 1 → ((1 - eps) * exactGain a : ℝ) ^ dbDecade ≤ (q : ℝ) ^ dbDecade) := by
  obtain ⟨hhi, hlo⟩ := h
  rw [mul_pow, mul_pow, exactGain_pow]
  refine ⟨?_, fun hlt => ?_⟩
  · have hcast := Rat.cast_le (K := ℝ).mpr hhi
    push_cast at hcast
    exact hcast
  · have hcast := Rat.cast_le (K := ℝ).mpr (hlo hlt)
    push_cast at hcast
    exact hcast

/-- P4 over the reals, from its form with the powers of 5120. -/
theorem abs_sub_exactGain_le {eps q : Rat} {a : Int} (he : 0 < eps) (hq : 0 < q) (h : withinTolerance eps q a) :
    |(q : ℝ) - exactGain a| ≤ eps * exactGain a := by
  obtain ⟨hhi, hlo⟩ := pow_le_of_withinTolerance h
  have hx := exactGain_pos a
  have he' : (0 : ℝ) < eps := Rat.cast_pos.mpr he
  have hq' : (0 : ℝ) < q := Rat.cast_pos.mpr hq
  have hupper : (q : ℝ) ≤ (1 + eps) * exactGain a := le_of_pow_le_pow_left₀ dbDecade_ne_zero (by positivity) hhi
  have hlower : (1 - eps : ℝ) * exactGain a ≤ q := by
    rcases lt_or_ge eps 1 with hlt | hge
    · exact le_of_pow_le_pow_left₀ dbDecade_ne_zero hq'.le (hlo hlt)
    · have hge' : (1 : ℝ) ≤ eps := by exact_mod_cast hge
      exact (mul_nonpos_of_nonpos_of_nonneg (by linarith) hx.le).trans hq'.le
  rw [abs_le]
  constructor <;> linarith

/-- Settles O60: P4 without a root, over the integers, gives P4 over the reals. -/
theorem dbToLinearIsWithinTolerance : Obligations.DbToLinearIsWithinTolerance := by
  intro c a hvalid
  have he := db2linEps_pos_of_valid hvalid
  exact abs_sub_exactGain_le he (db2lin_pos c a) (withinTolerance_db2lin he a)

end Sys2Proof.Machine
end

section
/-! The statements of 43_gain_smoothing.md about the gains of the state: the target of a channel, and the gains with
VOL_MAX = 0. -/

namespace Sys2Proof.Machine

/-! ### The target -/

/-- 43_gain_smoothing.md R185: a muted channel, or one at the floor of the attenuation. -/
theorem target_eq_zero {s : State} {c : Side} (h : sideMuted s c = true ∨ attenuation s c ≤ attFloor) :
    target s c = 0 :=
  if_pos (by simpa using h)

theorem target_eq_db2lin {s : State} {c : Side} (hm : sideMuted s c = false) (ha : attFloor < attenuation s c) :
    target s c = db2lin s.cfg (attenuation s c) :=
  if_neg (by simpa [hm] using ha)

theorem sideMuted_eq_true {s : State} {c : Side} :
    sideMuted s c = true ↔ s.mute2 = true ∨ getMute s (sideChan c) = true := by
  simp [sideMuted, getMute]

theorem sideMuted_eq_false {s : State} {c : Side} :
    sideMuted s c = false ↔ s.mute2 = false ∧ getMute s (sideChan c) = false := by
  simp [sideMuted, getMute]

/-- Settles O18: the three ways to 0, and the conversion of the exact sum otherwise. -/
theorem targetGainRule : Obligations.TargetGainRule := by
  intro s
  refine ⟨fun h => ⟨?_, ?_⟩, fun h => ?_, fun h => ?_, fun h => ?_, fun h => ?_, fun hm h0 h => ?_, fun hm h1 h => ?_⟩
  · exact target_eq_zero (.inl (sideMuted_eq_true.mpr (.inl h)))
  · exact target_eq_zero (.inl (sideMuted_eq_true.mpr (.inl h)))
  · exact target_eq_zero (.inl (sideMuted_eq_true.mpr (.inr h)))
  · exact target_eq_zero (.inl (sideMuted_eq_true.mpr (.inr h)))
  · exact target_eq_zero (.inr h)
  · exact target_eq_zero (.inr h)
  · exact target_eq_db2lin (sideMuted_eq_false.mpr ⟨hm, h0⟩) h
  · exact target_eq_db2lin (sideMuted_eq_false.mpr ⟨hm, h1⟩) h

/-! ### The gains after a move -/

/-- `t` has the four gains of `s`. -/
def SameGains (s t : State) : Prop :=
  t.gainCur0 = s.gainCur0 ∧ t.gainCur1 = s.gainCur1 ∧ t.gainTgt0 = s.gainTgt0 ∧ t.gainTgt1 = s.gainTgt1

theorem SameGains.trans {r s t : State} (h : SameGains r s) (h' : SameGains s t) : SameGains r t := by
  obtain ⟨hc0, hc1, ht0, ht1⟩ := h
  obtain ⟨hc0', hc1', ht0', ht1'⟩ := h'
  exact ⟨hc0'.trans hc0, hc1'.trans hc1, ht0'.trans ht0, ht1'.trans ht1⟩

theorem SameGains.getGain_eq {s t : State} (h : SameGains s t) (c : Side) :
    getGainCur t c = getGainCur s c ∧ getGainTgt t c = getGainTgt s c := by
  obtain ⟨hc0, hc1, ht0, ht1⟩ := h
  cases c with
  | left => exact ⟨hc0, ht0⟩
  | right => exact ⟨hc1, ht1⟩

theorem advanceEngine_sameGains (s : State) : SameGains s (advanceEngine s) := by
  rw [advanceEngine_eq]
  split <;> exact ⟨rfl, rfl, rfl, rfl⟩

theorem clearDrained_sameGains (s : State) : SameGains s (clearDrained s) := by
  rw [clearDrained_eq]
  split <;> simp [SameGains]

theorem rearm_sameGains {s t : State} (h : rearm s = .ok t) : SameGains s t := by
  obtain ⟨-, ⟨-, rfl⟩ | ⟨-, rfl⟩⟩ := rearm_eq_ok.mp h <;> exact ⟨rfl, rfl, rfl, rfl⟩

/-- A channel of `t` has its gains from `s`, the gain 1, or, after a WRITE is accepted, the target of `s`. -/
def GainsFrom (s t : State) : Prop :=
  SameGains s t ∨ (∀ c, getGainCur t c = 1 ∧ getGainTgt t c = 1) ∨
  ∀ c, getGainTgt t c = target s c ∧ (getGainCur t c = target s c ∨ getGainCur t c = getGainCur s c)

/-- Of all moves only RESET, an INIT answered OK and an accepted WRITE touch the gains. -/
theorem Move.gainsFrom {s t : State} {u : Turn} (m : Move s u t) : GainsFrom s t := by
  cases m with
  | reset => exact .inr (.inl fun c => by cases c <;> exact ⟨rfl, rfl⟩)
  | initOk rest r cd md _ _ _ _ _ _ => exact .inr (.inl fun c => by cases c <;> exact ⟨rfl, rfl⟩)
  | writeAccepted rest f ptr cnt _ _ _ _ _ _ _ _ _ =>
    refine .inr (.inr fun c => ?_)
    by_cases hn : 1 ≤ cnt
    · cases c <;> exact ⟨rfl, .inl (if_pos hn)⟩
    · cases c <;> exact ⟨rfl, .inr (if_neg hn)⟩
  | wordMoved w _ _ _ _ => exact .inl (advanceEngine_sameGains (txPush s w))
  | completed _ _ _ _ hr => exact .inl ((clearDrained_sameGains { s with irqPend := false }).trans (rearm_sameGains hr))
  | _ => exact .inl (by simp [SameGains])

/-! ### With VOL_MAX = 0 -/

/-- With VOL_MAX = 0 no volume amplifies, so the sum of two is at most 0 (43_gain_smoothing.md R186). -/
theorem SafeState.target_le_one {s : State} (h : SafeState s) (hmax : s.cfg.volMax = 0) (c : Side) :
    target s c ≤ 1 := by
  have hatt : attenuation s c ≤ 0 := by
    have hmaster := (h.ranges.volume .master).2
    have hown := (h.ranges.volume (sideChan c)).2
    unfold attenuation
    omega
  unfold target
  split
  · exact zero_le_one
  · exact db2lin_le_one s.cfg hatt

theorem SafeState.gainsInUnit_of_gainsFrom {s t : State} (h : SafeState s) (hmax : s.cfg.volMax = 0)
    (hg : GainsInUnit s) (hfrom : GainsFrom s t) : GainsInUnit t := by
  intro c
  obtain hsame | hone | htgt := hfrom
  · obtain ⟨hcur, htgt⟩ := hsame.getGain_eq c
    rw [hcur, htgt]
    exact hg c
  · obtain ⟨hcur, htgt⟩ := hone c
    rw [hcur, htgt]
    norm_num
  · have hunit : 0 ≤ target s c ∧ target s c ≤ 1 := ⟨target_nonneg s c, h.target_le_one hmax c⟩
    obtain ⟨htgt, hcur | hcur⟩ := htgt c <;> rw [hcur, htgt]
    · exact ⟨hunit, hunit⟩
    · exact ⟨(hg c).1, hunit⟩

/-- Settles O49: a step is a move from the state in which its turn starts, whose configuration, safety and gains are
those of the state before it. -/
theorem gainsStayInUnit : Obligations.GainsStayInUnit := by
  intro s t hmax hsafe hg hstep
  have hstart : GainsInUnit (startTurn s) := hsafe.gainsInUnit_of_gainsFrom hmax hg (.inl ⟨rfl, rfl, rfl, rfl⟩)
  exact hsafe.startTurn.gainsInUnit_of_gainsFrom hmax hstart (step_move hstep).gainsFrom

end Sys2Proof.Machine
end

section
/-! The statements of 43_gain_smoothing.md about one sample: rounding, the clamp to full scale, the ramp over a block,
and the silence of a muted channel and of a WRITE of no frames. -/

namespace Sys2Proof.Machine

/-! ### Rounding (43_gain_smoothing.md R188) -/

theorem rnd_of_nonneg {q : Rat} (h : 0 ≤ q) : rnd q = ⌊q⌋ := if_pos h

theorem rnd_of_neg {q : Rat} (h : q < 0) : rnd q = -⌊-q⌋ := if_neg h.not_ge

theorem rnd_bounds_of_nonneg {q : Rat} (h : 0 ≤ q) : (rnd q : Rat) ≤ q ∧ q < rnd q + 1 := by
  rw [rnd_of_nonneg h]
  exact ⟨Int.floor_le q, Int.lt_floor_add_one q⟩

theorem rnd_bounds_of_neg {q : Rat} (h : q < 0) : q ≤ (rnd q : Rat) ∧ (rnd q : Rat) < q + 1 := by
  have hle := Int.floor_le (-q)
  have hlt := Int.lt_floor_add_one (-q)
  rw [rnd_of_neg h, Int.cast_neg]
  constructor <;> linarith

@[simp] theorem rnd_intCast (n : Int) : rnd (n : Rat) = n := by
  rcases le_or_gt 0 (n : Rat) with h | h
  · rw [rnd_of_nonneg h, Int.floor_intCast]
  · rw [rnd_of_neg h, ← Int.cast_neg, Int.floor_intCast, neg_neg]

theorem rnd_nonneg {q : Rat} (h : 0 ≤ q) : 0 ≤ rnd q := by
  rw [rnd_of_nonneg h]
  exact Int.floor_nonneg.mpr h

theorem rnd_nonpos {q : Rat} (h : q ≤ 0) : rnd q ≤ 0 := by
  rcases h.lt_or_eq with hneg | rfl
  · rw [rnd_of_neg hneg, neg_nonpos]
    exact Int.floor_nonneg.mpr (neg_nonneg.mpr h)
  · exact (rnd_intCast 0).le

theorem abs_rnd_le (q : Rat) : |(rnd q : Rat)| ≤ |q| := by
  rcases le_or_gt 0 q with h | h
  · have hr : (0 : Rat) ≤ rnd q := by exact_mod_cast rnd_nonneg h
    rw [abs_of_nonneg hr, abs_of_nonneg h]
    exact (rnd_bounds_of_nonneg h).1
  · have hr : (rnd q : Rat) ≤ 0 := by exact_mod_cast rnd_nonpos h.le
    rw [abs_of_nonpos hr, abs_of_neg h]
    exact neg_le_neg (rnd_bounds_of_neg h).1

/-- Settles O20: by the sign, the floor from below or from above. -/
theorem roundingTruncates : Obligations.RoundingTruncates :=
  ⟨fun _ h => rnd_bounds_of_nonneg h, fun _ h => rnd_bounds_of_neg h, rnd_intCast, abs_rnd_le⟩

/-! ### The clamp to full scale (43_gain_smoothing.md R189) -/

/-- 0 lies in the full scale of every depth. -/
theorem inFullScale_zero (d : Nat) : inFullScale d 0 := by
  have hpos : (0 : Int) < 2 ^ (d - 1) := by positivity
  constructor <;> linarith

theorem applyGain_inFullScale (x : Int) (g : Rat) (d : Nat) : inFullScale d (applyGain x g d) := by
  obtain ⟨hmin, hmax⟩ := inFullScale_zero d
  exact ⟨le_max_left _ _, max_le (hmin.trans hmax) (min_le_left _ _)⟩

theorem applyGain_of_inFullScale {x : Int} {g : Rat} {d : Nat} (h : inFullScale d (rnd (x * g))) :
    applyGain x g d = rnd (x * g) := by
  obtain ⟨hmin, hmax⟩ := h
  rw [applyGain, min_eq_right (by exact hmax), max_eq_right (by exact hmin)]

theorem applyGain_of_above {x : Int} {g : Rat} {d : Nat} (h : 2 ^ (d - 1) - 1 < rnd (x * g)) :
    applyGain x g d = 2 ^ (d - 1) - 1 := by
  obtain ⟨hmin, hmax⟩ := inFullScale_zero d
  rw [applyGain, min_eq_left (by exact h.le)]
  exact max_eq_right (hmin.trans hmax)

theorem applyGain_of_below {x : Int} {g : Rat} {d : Nat} (h : rnd (x * g) < -2 ^ (d - 1)) :
    applyGain x g d = -2 ^ (d - 1) :=
  max_eq_left ((min_le_right _ _).trans h.le)

/-- A product that is an integer of the full scale is not rounded and not clamped. -/
theorem applyGain_of_mul_eq {x y : Int} {g : Rat} {d : Nat} (h : (x : Rat) * g = y) (hy : inFullScale d y) :
    applyGain x g d = y := by
  have hrnd : rnd (x * g) = y := by rw [h, rnd_intCast]
  exact (applyGain_of_inFullScale (hrnd.symm ▸ hy)).trans hrnd

@[simp] theorem applyGain_gain_zero (x : Int) (d : Nat) : applyGain x 0 d = 0 :=
  applyGain_of_mul_eq (by simp) (inFullScale_zero d)

@[simp] theorem applyGain_sample_zero (g : Rat) (d : Nat) : applyGain 0 g d = 0 :=
  applyGain_of_mul_eq (by simp) (inFullScale_zero d)

/-- Settles O21: the product inside the full scale, above it and below it; gain 0, sample 0 and gain 1 give an integer
product. -/
theorem applyClampsToFullScale : Obligations.ApplyClampsToFullScale :=
  fun d x g _ => ⟨applyGain_inFullScale x g d, applyGain_of_inFullScale, applyGain_of_above, applyGain_of_below,
    applyGain_gain_zero x d, applyGain_sample_zero g d, applyGain_of_mul_eq (mul_one _)⟩

/-- A gain between 0 and 1 keeps the sign of a sample and does not increase its magnitude. -/
theorem rnd_mul_unit {x : Int} {g : Rat} (h0 : 0 ≤ g) (h1 : g ≤ 1) :
    |rnd (x * g)| ≤ |x| ∧ (0 ≤ x → 0 ≤ rnd (x * g)) ∧ (x ≤ 0 → rnd (x * g) ≤ 0) := by
  refine ⟨?_, fun hx => rnd_nonneg ?_, fun hx => rnd_nonpos ?_⟩
  · have hmul : |(x : Rat) * g| ≤ |(x : Rat)| := by
      rw [abs_mul, abs_of_nonneg h0]
      exact mul_le_of_le_one_right (abs_nonneg _) h1
    exact_mod_cast (abs_rnd_le _).trans hmul
  · exact mul_nonneg (Int.cast_nonneg hx) h0
  · exact mul_nonpos_of_nonpos_of_nonneg (Int.cast_nonpos.mpr hx) h0

/-- Settles O22: the rounded product lies between 0 and the sample, so inside the full scale. -/
theorem unitGainNeverClips : Obligations.UnitGainNeverClips := by
  intro d x g _ hx h0 h1
  obtain ⟨hmag, hpos, hneg⟩ := rnd_mul_unit (x := x) h0 h1
  have hscale : inFullScale d (rnd (x * g)) := by
    obtain ⟨hmin, hmax⟩ := hx
    obtain ⟨hmin0, hmax0⟩ := inFullScale_zero d
    rcases le_total 0 x with hsign | hsign
    · rw [abs_of_nonneg (hpos hsign), abs_of_nonneg hsign] at hmag
      exact ⟨hmin0.trans (hpos hsign), hmag.trans hmax⟩
    · rw [abs_of_nonpos (hneg hsign), abs_of_nonpos hsign, neg_le_neg_iff] at hmag
      exact ⟨hmin.trans hmag, (hneg hsign).trans hmax0⟩
  rw [applyGain_of_inFullScale hscale]
  exact ⟨rfl, hmag⟩

/-! ### The ramp (43_gain_smoothing.md R187) -/

theorem rampGain_last (g0 g1 : Rat) {n : Nat} (hn : 1 ≤ n) : rampGain g0 g1 n n = g1 := by
  have hne : (n : Rat) ≠ 0 := by positivity
  rw [rampGain, mul_div_cancel_left₀ _ hne, add_sub_cancel]

theorem rampGain_succ_sub (g0 g1 : Rat) (n k : Nat) :
    rampGain g0 g1 n (k + 1) - rampGain g0 g1 n k = (g1 - g0) / n := by
  unfold rampGain
  push_cast
  ring

/-- A ramp to a gain that is no lower never falls, from any frame to the next. -/
theorem rampGain_mono {g0 g1 : Rat} (h : g0 ≤ g1) (n : Nat) : Monotone (rampGain g0 g1 n) :=
  monotone_nat_of_le_succ fun k =>
    sub_nonneg.mp (rampGain_succ_sub g0 g1 n k ▸ div_nonneg (sub_nonneg.mpr h) n.cast_nonneg)

theorem rampGain_antitone {g0 g1 : Rat} (h : g1 ≤ g0) (n : Nat) : Antitone (rampGain g0 g1 n) :=
  antitone_nat_of_succ_le fun k =>
    sub_nonpos.mp (rampGain_succ_sub g0 g1 n k ▸ div_nonpos_of_nonpos_of_nonneg (sub_nonpos.mpr h) n.cast_nonneg)

/-- Settles O23: the ramp has equal steps, so it is monotone and lies between its values at frames 0 and N. -/
theorem rampIsLinearAndMonotone : Obligations.RampIsLinearAndMonotone := by
  intro g0 g1 n hn
  have hfirst := rampGain_zero g0 g1 n
  have hlast := rampGain_last g0 g1 hn
  refine ⟨hfirst, hlast, rampGain_succ_sub g0 g1 n, fun h k hk => ?_, fun h k hk => ?_⟩
  · have hmono := rampGain_mono h n
    exact ⟨hfirst.ge.trans (hmono k.zero_le), (hmono hk.le).trans hlast.le⟩
  · have hanti := rampGain_antitone h n
    exact ⟨hlast.ge.trans (hanti hk.le), (hanti k.zero_le).trans hfirst.le⟩

/-! ### Silence -/

/-- 43_gain_smoothing.md R197: a muted channel ramps from 0 to 0. -/
theorem scaledSample_of_muted {s : State} {c : Side} (hm : sideMuted s c = true) (hg : getGainCur s c = 0) (f : Fmt)
    (ptr n k : Nat) : scaledSample s f ptr n k c = 0 := by
  rw [scaledSample, target_eq_zero (.inl hm), hg, rampGain_self, applyGain_gain_zero]

theorem frameWords_packed16 {s : State} (h : s.cfg.nativeFmt = .packed16) (f : Fmt) (ptr n k : Nat) :
    frameWords s f ptr n k = [packWord (scaledSample s f ptr n k .left) (scaledSample s f ptr n k .right)] := by
  rw [frameWords, h]

theorem frameWords_lj24 {s : State} (h : s.cfg.nativeFmt = .lj24) (f : Fmt) (ptr n k : Nat) :
    frameWords s f ptr n k =
      [justifyWord (scaledSample s f ptr n k .left) (fmtDepth f),
       justifyWord (scaledSample s f ptr n k .right) (fmtDepth f)] := by
  rw [frameWords, h]

@[simp] theorem packWord_high (yL yR : Int) : (packWord yL yR).extractLsb' 16 16 = BitVec.ofInt 16 yL :=
  BitVec.extractLsb'_append_eq_left

@[simp] theorem packWord_low (yL yR : Int) : (packWord yL yR).extractLsb' 0 16 = BitVec.ofInt 16 yR :=
  BitVec.extractLsb'_append_eq_right

@[simp] theorem justifyWord_zero (d : Nat) : justifyWord 0 d = 0#32 := by
  simp [justifyWord]

/-- Settles O24: the channel's scaled sample is 0, and so is its part of the frame. -/
theorem mutedChannelIsSilent : Obligations.MutedChannelIsSilent := by
  intro s f ptr cnt k c hmute hg
  have hzero := scaledSample_of_muted (sideMuted_eq_true.mpr hmute) hg f ptr cnt k
  refine ⟨hzero, fun hfmt w hw => ?_, fun hfmt => ?_⟩
  · rw [frameWords_packed16 hfmt, List.mem_singleton] at hw
    refine ⟨fun hc => ?_, fun hc => ?_⟩ <;> subst hc hw
    · rw [packWord_high, hzero]
      rfl
    · rw [packWord_low, hzero]
      rfl
  · rw [frameWords_lj24 hfmt]
    refine ⟨fun hc => ?_, fun hc => ?_⟩ <;> subst hc <;> rw [hzero, justifyWord_zero] <;> rfl

/-- 41_double_buffer.md R121: the accept step of a WRITE with none of the errors of 60_exceptions.md R273. -/
theorem execWrite_accepted {s : State} {f : Fmt} {ptr cnt : Nat} (hf : s.failed = false) (hi : s.inited = true)
    (hfmt : badFormat s f = false) (hcnt : cnt ≤ s.cfg.bufFrames) (haddr : badAddr f ptr cnt = false) :
    execWrite f ptr cnt s = .next { process s f ptr cnt with wphase := .wait } := by
  simp [execWrite, hf, hi, hfmt, hcnt.not_gt, haddr]

theorem badFormat_eq_false {s : State} {f : Fmt} :
    badFormat s f = false ↔ ¬ (fmtWide f = true ∧ s.cfg.nativeFmt = .packed16) := by
  simp [badFormat]

theorem badAddr_eq_false {f : Fmt} {ptr cnt : Nat} :
    badAddr f ptr cnt = false ↔ ptr % containerBytes f = 0 ∧ ptr + cnt * frameBytes f ≤ 2 ^ 32 := by
  simp [badAddr]

/-- 43_gain_smoothing.md R191: PROCESS of no frame stages W zero words and leaves GAIN_CUR. -/
theorem process_no_frames (s : State) (f : Fmt) (ptr : Nat) :
    process s f ptr 0 = { s with
      stage := List.replicate (bufWords s.cfg) 0#32
      gainTgt0 := target s .left, gainTgt1 := target s .right } := by
  rw [process, stageWords_zero]
  rfl

/-- Settles O15: a block of no frame fits, so the WRITE is accepted and processed. -/
theorem writeOfNoFramesIsSilence : Obligations.WriteOfNoFramesIsSilence := by
  intro s f ptr hf hi hfmt halign hptr
  have haddr : badAddr f ptr 0 = false := badAddr_eq_false.mpr ⟨halign, by omega⟩
  rw [exec, execWrite_accepted hf hi (badFormat_eq_false.mpr hfmt) (Nat.zero_le _) haddr, process_no_frames]

end Sys2Proof.Machine
end

section
/-! The statements of 43_gain_smoothing.md about SMUTE, GMUTE, SVOL, GVOL and GVRNG: what each answers and changes, and
its encoding. -/

namespace Sys2Proof.Machine

/-! ### Responses and doublewords with zero fields -/

theorem responseWord_ok_boolValue (m : Bool) :
    responseWord .ok (boolValue m) = if m then 0x0000000000000001#64 else 0x0000000000000000#64 := by
  cases m <;> decide

/-- A signed value is answered in VALUE[15:0] alone (43_gain_smoothing.md R195). -/
theorem responseWord_ok_signedValue (v : Int) : responseWord .ok (signedValue v) = 0#48 ++ BitVec.ofInt 16 v := by
  have hzext : signedValue v = 0#16 ++ BitVec.ofInt 16 v := BitVec.setWidth_eq_append (by decide)
  rw [responseWord, hzext]
  exact (BitVec.append_assoc (x₁ := 0#8 ++ 0#24) (x₂ := 0#16) (x₃ := BitVec.ofInt 16 v)).symm

/-- A doubleword with CNT and ARG zero. -/
theorem append_zero48_eq_packCommand (opc sel : BitVec 8) : opc ++ sel ++ 0#48 = packCommand opc sel 0#16 0#32 :=
  (BitVec.append_assoc (x₁ := opc ++ sel) (x₂ := 0#16) (x₃ := 0#32)).symm

/-- A doubleword with CNT and ARG[31:16] zero. -/
theorem append_zero32_eq_packCommand (opc sel : BitVec 8) (u : BitVec 16) :
    opc ++ sel ++ 0#32 ++ u = packCommand opc sel 0#16 (0#16 ++ u) :=
  calc opc ++ sel ++ 0#32 ++ u = opc ++ sel ++ 0#16 ++ 0#16 ++ u :=
        congrArg (· ++ u) (BitVec.append_assoc (x₁ := opc ++ sel) (x₂ := 0#16) (x₃ := 0#16)).symm
    _ = packCommand opc sel 0#16 (0#16 ++ u) := BitVec.append_assoc (x₁ := opc ++ sel ++ 0#16) (x₂ := 0#16) (x₃ := u)

/-! ### What each command does -/

theorem exec_smute (ch : Chan) (m : Bool) (s : State) :
    exec (.smute ch m) s = .next { setMute s ch m with respC := s.respC ++ [0x0000000000000000#64] } := by
  rw [exec, execSmute, respond, responseWord_ok_zero, setMute_respC]

theorem exec_gmute (ch : Chan) (s : State) :
    exec (.gmute ch) s = .next { s with
      respC := s.respC ++ [if getMute s ch then 0x0000000000000001#64 else 0x0000000000000000#64] } := by
  rw [exec, execGmute, respond, responseWord_ok_boolValue]

theorem exec_svol (ch : Chan) (v : Int) (s : State) :
    exec (.svol ch v) s = .next { setVol s ch (clampVol s.cfg v) with
      respC := s.respC ++ [0x0000000000000000#64] } := by
  rw [exec, execSvol, respond, responseWord_ok_zero, setVol_respC]

/-- The 16 bits stored are those answered. -/
theorem exec_gvol {ch : Chan} {s : State} {v : BitVec 16} (h : getVol s ch = v.toInt) :
    exec (.gvol ch) s = .next { s with respC := s.respC ++ [0#48 ++ v] } := by
  rw [exec, execGvol, respond, h, responseWord_ok_signedValue, BitVec.ofInt_toInt]

theorem exec_gvrng (item : RangeItem) (s : State) :
    exec (.gvrng item) s = .next { s with respC := s.respC ++ [0#48 ++ BitVec.ofInt 16 (rangeValue s.cfg item)] } := by
  rw [exec, execGvrng, respond, responseWord_ok_signedValue]

/-! ### The five statements, by the channel or the item -/

/-- Settles O31. -/
theorem smuteSetsOneMute : Obligations.SmuteSetsOneMute :=
  fun m s => ⟨exec_smute .ch0 m s, exec_smute .ch1 m s, exec_smute .master m s,
    fun ch => decode_of_encode (i := .smute ch m) rfl rfl rfl⟩

/-- Settles O32. -/
theorem gmuteReadsRegister : Obligations.GmuteReadsRegister := by
  intro s
  refine ⟨exec_gmute .ch0 s, exec_gmute .ch1 s, exec_gmute .master s, fun ch => ?_⟩
  rw [append_zero48_eq_packCommand]
  exact decode_of_encode (i := .gmute ch) rfl rfl rfl

/-- Settles O33: in a valid configuration 16 bits hold the clamped volume. -/
theorem svolClampsAndStores : Obligations.SvolClampsAndStores := by
  intro v s hvalid
  obtain ⟨hstored, -, -⟩ := toInt_clampVol hvalid v
  refine ⟨hstored, exec_svol .ch0 v s, exec_svol .ch1 v s, exec_svol .master v s, fun ch u => ?_⟩
  rw [append_zero32_eq_packCommand]
  exact decode_of_encode (i := .svol ch u.toInt) (fitsVol_toInt u) rfl (by rw [encode, BitVec.ofInt_toInt])

/-- Settles O34: each register is its channel's volume. -/
theorem gvolReadsStoredVolume : Obligations.GvolReadsStoredVolume := by
  intro s
  refine ⟨exec_gvol (ch := .ch0) rfl, exec_gvol (ch := .ch1) rfl, exec_gvol (ch := .master) rfl, fun ch => ?_⟩
  rw [append_zero48_eq_packCommand]
  exact decode_of_encode (i := .gvol ch) rfl rfl rfl

/-- Settles O35. -/
theorem gvrngReadsRange : Obligations.GvrngReadsRange := by
  intro s
  refine ⟨exec_gvrng .min s, exec_gvrng .max s, exec_gvrng .res s, fun item => ?_⟩
  rw [append_zero48_eq_packCommand]
  exact decode_of_encode (i := .gvrng item) rfl rfl rfl

end Sys2Proof.Machine
end

section
/-! The statements of 44_format_adapter.md about one sample: where its container lies in SRC, and the number it holds. -/

namespace Sys2Proof.Machine

/-! ### The address of a container (44_format_adapter.md R223) -/

theorem sampleAddr_eq (f : Fmt) (ptr k : Nat) (c : Side) :
    sampleAddr f ptr k c =
      ptr + k * frameBytes f + (if fmtStereo f = true ∧ c = .right then containerBytes f else 0) := by
  cases c <;> simp [sampleAddr]

theorem sampleAddr_of_mono {f : Fmt} (h : fmtStereo f = false) (ptr k : Nat) (c : Side) :
    sampleAddr f ptr k c = ptr + k * frameBytes f := by
  simp [sampleAddr_eq, h]

/-- Settles O17: the two channels read one container. -/
theorem monoFeedsBothChannels : Obligations.MonoFeedsBothChannels := by
  intro s f ptr k hmono
  rw [sample, sample, sampleAddr_of_mono hmono ptr k .left, sampleAddr_of_mono hmono ptr k .right]

/-! ### Bytes in little-endian order (20_memory.md R62) -/

/-- A byte appended on the right is the least significant one. -/
theorem toNat_append_byte {n : Nat} (x : BitVec n) (y : Byte) : (x ++ y).toNat = y.toNat + 256 * x.toNat := by
  rw [BitVec.toNat_append, ← Nat.shiftLeft_add_eq_or_of_lt y.isLt, Nat.shiftLeft_eq, Nat.add_comm, Nat.mul_comm]

theorem memRead2_toNat (s : State) (a : Nat) :
    (memRead2 s a).toNat = (srcByte s a).toNat + 256 * (srcByte s (a + 1)).toNat :=
  toNat_append_byte _ _

theorem memRead4_toNat (s : State) (a : Nat) :
    (memRead4 s a).toNat = (srcByte s a).toNat + 256 * (srcByte s (a + 1)).toNat +
      65536 * (srcByte s (a + 2)).toNat + 16777216 * (srcByte s (a + 3)).toNat := by
  rw [memRead4, toNat_append_byte, toNat_append_byte, toNat_append_byte]
  ring

/-- r[23:0] of 44_format_adapter.md R223 leaves the last byte out. -/
theorem memRead4_low_toNat (s : State) (a : Nat) :
    ((memRead4 s a).extractLsb' 0 24).toNat =
      (srcByte s a).toNat + 256 * (srcByte s (a + 1)).toNat + 65536 * (srcByte s (a + 2)).toNat := by
  rw [BitVec.extractLsb'_toNat, memRead4_toNat, Nat.shiftRight_zero]
  omega

/-- r[31:8] of 44_format_adapter.md R223 leaves the first byte out. -/
theorem memRead4_high_toNat (s : State) (a : Nat) :
    ((memRead4 s a).extractLsb' 8 24).toNat =
      (srcByte s (a + 1)).toNat + 256 * (srcByte s (a + 2)).toNat + 65536 * (srcByte s (a + 3)).toNat := by
  rw [BitVec.extractLsb'_toNat, memRead4_toNat, Nat.shiftRight_eq_div_pow]
  omega

/-! ### The sample of each kind of format (44_format_adapter.md R220, R223) -/

theorem sample_narrow {f : Fmt} (hw : fmtWide f = false) (s : State) (ptr k : Nat) (c : Side) :
    sample s f ptr k c = (memRead2 s (sampleAddr f ptr k c)).toInt := by
  simp [sample, hw]

theorem sample_right_justified {f : Fmt} (hw : fmtWide f = true) (hl : fmtLeftJustified f = false) (s : State)
    (ptr k : Nat) (c : Side) :
    sample s f ptr k c = ((memRead4 s (sampleAddr f ptr k c)).extractLsb' 0 24).toInt := by
  simp [sample, hw, hl]

theorem sample_left_justified {f : Fmt} (hw : fmtWide f = true) (hl : fmtLeftJustified f = true) (s : State)
    (ptr k : Nat) (c : Side) :
    sample s f ptr k c = ((memRead4 s (sampleAddr f ptr k c)).extractLsb' 8 24).toInt := by
  simp [sample, hw, hl]

/-- Two's complement: the upper half of the patterns stands for the negative numbers. -/
theorem toInt_of_toNat_eq {n m : Nat} {x : BitVec (n + 1)} (h : x.toNat = m) :
    x.toInt = if (m : Int) < 2 ^ n then (m : Int) else m - 2 ^ (n + 1) := by
  have hhalf : 2 * m < 2 ^ (n + 1) ↔ (m : Int) < 2 ^ n := by
    rw [pow_succ]
    norm_cast
    omega
  simp only [BitVec.toInt_eq_toNat_cond, h, hhalf]
  push_cast
  rfl

/-- Settles O16: two's complement of the bytes that the format's read takes from the container. -/
theorem sampleReadsLittleEndian : Obligations.SampleReadsLittleEndian := by
  intro s f ptr k c
  rw [← sampleAddr_eq]
  refine ⟨fun hwide => ?_, fun hwide hlj => ?_, fun hwide hlj => ?_⟩
  · rw [sample_narrow hwide, toInt_of_toNat_eq (memRead2_toNat s _)]
    push_cast
    rfl
  · rw [sample_right_justified hwide hlj, toInt_of_toNat_eq (memRead4_low_toNat s _)]
    push_cast
    rfl
  · rw [sample_left_justified hwide hlj, toInt_of_toNat_eq (memRead4_high_toNat s _)]
    push_cast
    rfl

end Sys2Proof.Machine
end

section
/-! The statement of 44_format_adapter.md about PROCESS: the words of STAGE after the accept step of a WRITE. -/

namespace Sys2Proof.Machine

/-! ### The words of a frame in STAGE (44_format_adapter.md R226) -/

theorem wordsPerFrame_packed16 {c : Config} (h : c.nativeFmt = .packed16) : wordsPerFrame c = 1 := by
  rw [wordsPerFrame, h]

theorem wordsPerFrame_lj24 {c : Config} (h : c.nativeFmt = .lj24) : wordsPerFrame c = 2 := by
  rw [wordsPerFrame, h]

section StagedFrame

variable {s : State} (f : Fmt) (ptr : Nat) {n k : Nat}

theorem stageWords_packed16 (hfmt : s.cfg.nativeFmt = .packed16) (hk : k < n) :
    (stageWords s f ptr n)[k]? =
      some (packWord (scaledSample s f ptr n k .left) (scaledSample s f ptr n k .right)) := by
  have hw := wordsPerFrame_packed16 hfmt
  have hword := stageWords_frame s f ptr hk (j := 0) (by omega)
  rwa [hw, Nat.mul_one, frameWords_packed16 hfmt] at hword

theorem stageWords_lj24_left (hfmt : s.cfg.nativeFmt = .lj24) (hk : k < n) :
    (stageWords s f ptr n)[2 * k]? = some (justifyWord (scaledSample s f ptr n k .left) (fmtDepth f)) := by
  have hw := wordsPerFrame_lj24 hfmt
  have hword := stageWords_frame s f ptr hk (j := 0) (by omega)
  rwa [hw, Nat.mul_comm, frameWords_lj24 hfmt] at hword

theorem stageWords_lj24_right (hfmt : s.cfg.nativeFmt = .lj24) (hk : k < n) :
    (stageWords s f ptr n)[2 * k + 1]? = some (justifyWord (scaledSample s f ptr n k .right) (fmtDepth f)) := by
  have hw := wordsPerFrame_lj24 hfmt
  have hword := stageWords_frame s f ptr hk (j := 1) (by omega)
  rwa [hw, Nat.mul_comm, frameWords_lj24 hfmt] at hword

end StagedFrame

/-! ### The accept step -/

/-- 43_gain_smoothing.md R190, R191: GAIN_CUR after PROCESS, by whether the block has a frame. -/
theorem process_eq (s : State) (f : Fmt) (ptr n : Nat) :
    process s f ptr n = { s with
      stage := stageWords s f ptr n
      gainTgt0 := target s .left, gainTgt1 := target s .right
      gainCur0 := if n = 0 then s.gainCur0 else target s .left
      gainCur1 := if n = 0 then s.gainCur1 else target s .right } := by
  cases n <;> simp [process]

/-- Settles O14: the WRITE is accepted, and STAGE holds each frame's words and then zero words. -/
theorem writeAcceptProcessesBlock : Obligations.WriteAcceptProcessesBlock := by
  intro s f ptr cnt hf hi hfmt hcnt halign hend
  have haddr : badAddr f ptr cnt = false := badAddr_eq_false.mpr ⟨halign, hend⟩
  refine ⟨{ process s f ptr cnt with wphase := .wait }, execWrite_accepted hf hi (badFormat_eq_false.mpr hfmt) hcnt haddr,
    by rw [process_eq], stageWords_length s f ptr cnt hcnt, fun k hk => ⟨fun hpacked => ?_, fun hlj => ⟨?_, ?_⟩⟩,
    fun j hpad hj => stageWords_padding s f ptr hpad hj⟩
  · exact stageWords_packed16 f ptr hpacked hk
  · exact stageWords_lj24_left f ptr hlj hk
  · exact stageWords_lj24_right f ptr hlj hk

end Sys2Proof.Machine
end

section
/-! The statements of 45_clock_configurator.md: the dividers CLOCKCFG answers, how they are rounded, and GRATE. -/

namespace Sys2Proof.Machine

/-! ### CLOCKCFG -/

/-- CLOCKCFG answers ok exactly at the rates it accepts, with the dividers of 45_clock_configurator.md R250. -/
theorem clockCfg_eq_some {c : Config} {r : Nat} {cd md : Divider} :
    clockCfg c r = some (cd, md) ↔
      rateAccepted c r ∧ BitVec.ofNat 24 (serialDivider c r) = cd ∧
        (if c.hasMclk then BitVec.ofNat 24 (masterDivider c r) else 0#24) = md := by
  rw [clockCfg_eq, Option.ite_none_right_eq_some, Option.some.injEq, Prod.mk.injEq]

/-- A representable divider is its 24-bit register exactly (10_state.md R38). -/
theorem toNat_divider {d : Nat} (h : representable d) : (BitVec.ofNat 24 d).toNat = d :=
  (BitVec.toNat_ofNat d 24).trans (Nat.mod_eq_of_lt h.2)

/-- Settles O11: each divider of an accepted rate is representable, so its register holds it exactly. -/
theorem clockDividersByRule : Obligations.ClockDividersByRule := by
  intro c r
  refine ⟨fun hrate => ?_, fun hrate => (clockCfg_eq c r).trans (if_neg hrate)⟩
  have ⟨_, hserial, hmaster⟩ := hrate
  refine ⟨_, _, clockCfg_eq_some.mpr ⟨hrate, rfl, rfl⟩, toNat_divider hserial, ?_⟩
  by_cases hm : c.hasMclk = true
  · rw [if_pos hm, if_pos hm, toNat_divider (hmaster hm)]
  · rw [if_neg hm, if_neg hm, BitVec.toNat_zero]

/-- A representable serial divider is not 0, so it is no quotient by 0 (45_clock_configurator.md R256). -/
theorem serialCycles_pos {c : Config} {r : Nat} (h : representable (serialDivider c r)) : 0 < serialCycles c r := by
  refine Nat.pos_of_ne_zero fun hden => ?_
  have hzero : serialDivider c r = 0 := (congrArg (c.sysClkHz * 2 ^ 8 / ·) hden).trans (Nat.div_zero _)
  rw [hzero] at h
  exact absurd h (by decide)

/-- Settles O12: the serial divider is the floor of a quotient by a positive number. -/
theorem frameRateIsNeverBelowRequest : Obligations.FrameRateIsNeverBelowRequest := by
  intro c r cd md _ hclk
  obtain ⟨⟨_, hserial, _⟩, rfl, _⟩ := clockCfg_eq_some.mp hclk
  rw [toNat_divider hserial]
  exact ⟨Nat.div_mul_le_self _ _, Nat.lt_mul_of_div_lt (Nat.lt_succ_self _) (serialCycles_pos hserial)⟩

/-! ### GRATE -/

/-- 30_encoding.md R96: STATUS OK is 0, so the response is VALUE alone. -/
theorem responseWord_ok (value : Word) : responseWord .ok value = 0#32 ++ value := rfl

/-- Settles O36: the word of the encoding, and the response with RATE as its value. -/
theorem grateReadsRate : Obligations.GrateReadsRate := by
  refine ⟨decode_of_encode (i := .grate) (by decide) rfl (by decide), fun s => ?_⟩
  rw [exec, execGrate, respond, responseWord_ok]

end Sys2Proof.Machine
end

section
/-! SUPPORT. What taking the completion interrupt leaves, one equation for each of its three outcomes
(60_exceptions.md R281), and the transfer of the silence buffer. -/

namespace Sys2Proof.Machine

/-! ### The drained buffer's flag -/

/-- The handler's first act touches the two flags alone. -/
theorem clearDrained_eq_flags (s : State) :
    clearDrained s = { s with
      ready0 := if s.active = .a ∧ (s.txState = .drainA ∨ s.txState = .drainB) then false else s.ready0
      ready1 := if s.active = .b ∧ (s.txState = .drainA ∨ s.txState = .drainB) then false else s.ready1 } := by
  rw [clearDrained_eq]
  by_cases hd : s.txState = .drainA ∨ s.txState = .drainB
  · simp [hd, setReady_eq]
  · simp [hd]

@[simp] theorem clearDrained_cfg (s : State) : (clearDrained s).cfg = s.cfg := by rw [clearDrained_eq_flags]
@[simp] theorem clearDrained_active (s : State) : (clearDrained s).active = s.active := by rw [clearDrained_eq_flags]
@[simp] theorem clearDrained_irqEn (s : State) : (clearDrained s).irqEn = s.irqEn := by rw [clearDrained_eq_flags]
@[simp] theorem clearDrained_smEn (s : State) : (clearDrained s).smEn = s.smEn := by rw [clearDrained_eq_flags]
@[simp] theorem clearDrained_engBusy (s : State) : (clearDrained s).engBusy = s.engBusy := by rw [clearDrained_eq_flags]

/-- Clearing the flag does not look at IRQ_PEND or the schedule. -/
theorem clearDrained_of_schedule (s : State) (ts : List Turn) (n : Nat) (v : Bool) :
    clearDrained { s with turns := ts, tick := n, irqPend := v } =
      { clearDrained s with turns := ts, tick := n, irqPend := v } := by
  rw [clearDrained_eq_flags, clearDrained_eq_flags]

/-- The flag the handler tests is not the one it clears. -/
theorem getReady_clearDrained_other (s : State) :
    getReady (clearDrained s) (otherSlot s.active) = getReady s (otherSlot s.active) := by
  rw [clearDrained_eq]
  split
  · rw [getReady_setReady, if_neg (otherSlot_ne _)]
  · rfl

/-- Clearing a flag sets none. -/
theorem clearDrained_sets_no_flag (s : State) :
    (s.ready0 = false → (clearDrained s).ready0 = false) ∧ (s.ready1 = false → (clearDrained s).ready1 = false) := by
  refine ⟨fun h => ?_, fun h => ?_⟩ <;> simp [clearDrained_eq_flags, h]

/-! ### The three outcomes of the handler's step -/

/-- What an underrun makes of the state in which the drained buffer's flag is cleared. -/
def armedOnSilence (s : State) : State :=
  { s with
    irqPend := false
    engAddr := BitVec.ofNat 32 (silenceBase s.cfg)
    engCnt := BitVec.ofNat 32 (bufWords s.cfg)
    engBusy := true
    txState := .drainSilence }

section Completion

variable {s : State} {ts : List Turn}

/-- The handler's turn with the completion pending and enabled. -/
theorem step_handler (hts : s.turns = .agent .handler :: ts) (hp : s.irqPend = true) (he : s.irqEn = true) :
    step s = takeCompletion { s with turns := ts, tick := s.tick + 1 } := by
  rw [step_of_turns hts]
  exact if_pos (Bool.and_eq_true_iff.mpr ⟨hp, he⟩)

/-- With TXSTATE = IDLE the completion is dropped. -/
theorem step_handler_idle (hts : s.turns = .agent .handler :: ts) (hp : s.irqPend = true) (he : s.irqEn = true)
    (hx : s.txState = .idle) : step s = .next { s with turns := ts, tick := s.tick + 1, irqPend := false } :=
  (step_handler hts hp he).trans (takeCompletion_eq_next.mpr (.inl ⟨hx, rfl⟩))

/-- While transmission runs the step is the rearm after the drained buffer's flag is cleared. -/
theorem step_handler_running {t : State} (hts : s.turns = .agent .handler :: ts) (hp : s.irqPend = true)
    (he : s.irqEn = true) (hx : s.txState ≠ .idle)
    (hr : rearm { clearDrained s with turns := ts, tick := s.tick + 1, irqPend := false } = .ok t) :
    step s = .next t := by
  rw [← clearDrained_of_schedule] at hr
  exact (step_handler hts hp he).trans (takeCompletion_eq_next.mpr (.inr ⟨hx, hr⟩))

/-- The other buffer is ready: it becomes active and is armed. -/
theorem step_handler_switch (hts : s.turns = .agent .handler :: ts) (hp : s.irqPend = true) (he : s.irqEn = true)
    (hx : s.txState ≠ .idle) (hb : s.engBusy = false) (ho : getReady s (otherSlot s.active) = true) :
    step s = .next { clearDrained s with
      turns := ts, tick := s.tick + 1, irqPend := false
      active := otherSlot s.active
      engAddr := BitVec.ofNat 32 (slotBase s.cfg (otherSlot s.active))
      engCnt := BitVec.ofNat 32 (bufWords s.cfg)
      engBusy := true
      txState := drainOf (otherSlot s.active) } := by
  rw [← getReady_clearDrained_other] at ho
  refine step_handler_running hts hp he hx (rearm_eq_ok.mpr ⟨(clearDrained_engBusy s).trans hb, .inl ?_⟩)
  simp only [clearDrained_active, clearDrained_cfg, and_true]
  exact ho

/-- The other buffer is not ready: the silence buffer is armed, and ACTIVE stays. -/
theorem step_handler_underrun (hts : s.turns = .agent .handler :: ts) (hp : s.irqPend = true) (he : s.irqEn = true)
    (hx : s.txState ≠ .idle) (hb : s.engBusy = false) (ho : getReady s (otherSlot s.active) = false) :
    step s = .next (armedOnSilence { clearDrained s with turns := ts, tick := s.tick + 1 }) := by
  rw [← getReady_clearDrained_other] at ho
  refine step_handler_running hts hp he hx (rearm_eq_ok.mpr ⟨(clearDrained_engBusy s).trans hb, .inr ⟨?_, rfl⟩⟩)
  simp only [clearDrained_active]
  exact ho

end Completion

/-! ### The silence buffer -/

/-- Every word of the silence buffer is zero (10_state.md R28). -/
theorem bufRead_silence {s : State} {j : Nat} (hj : j < bufWords s.cfg) :
    bufRead s (silenceBase s.cfg + j) = .ok 0#32 :=
  bufRead_eq_ok.mpr (.inr ⟨Nat.le_add_right _ _, by unfold silenceBase; omega, rfl⟩)

/-- The transfer armed on the silence buffer pushes W zero words in W engine turns. -/
theorem stepsTo_silence {s : State} {rest : List Turn} (hc : s.cfg.valid = true) (hsm : s.smEn = true)
    (hirq : s.irqEn = true) (hts : s.turns = List.replicate (bufWords s.cfg) (.agent .engine) ++ rest) :
    stepsTo (bufWords s.cfg) (armedOnSilence s) = some { armedOnSilence s with
      txOut := s.txOut ++ List.replicate (bufWords s.cfg) 0#32
      engAddr := BitVec.ofNat 32 (silenceBase s.cfg + bufWords s.cfg), engCnt := 0#32, engBusy := false, irqPend := true
      turns := rest, tick := s.tick + bufWords s.cfg } := by
  obtain ⟨hpos, hmap⟩ := bufWords_bounds hc
  have hsil : silenceBase s.cfg = 2 * bufWords s.cfg := rfl
  have haddr : (armedOnSilence s).engAddr.toNat = silenceBase s.cfg :=
    (BitVec.toNat_ofNat _ _).trans (Nat.mod_eq_of_lt (by omega))
  have hcnt : (armedOnSilence s).engCnt.toNat = bufWords s.cfg :=
    (BitVec.toNat_ofNat _ _).trans (Nat.mod_eq_of_lt (by omega))
  have hlen : (List.replicate (bufWords s.cfg) 0#32).length = bufWords s.cfg := List.length_replicate
  have hread : ∀ j w, (List.replicate (bufWords s.cfg) 0#32)[j]? = some w →
      bufRead (armedOnSilence s) ((armedOnSilence s).engAddr.toNat + j) = .ok w := by
    intro j w hw
    obtain ⟨hj, rfl⟩ := List.getElem?_eq_some_iff.mp hw
    rw [haddr, List.getElem_replicate]
    exact bufRead_silence (s := armedOnSilence s) (hlen ▸ hj)
  have htransfer := stepsTo_transfer (s := armedOnSilence s) (rest := rest) rfl hsm hirq (by omega)
    (hlen.trans hcnt.symm) (by omega) hread (hts.trans (by rw [hlen]))
  rwa [hlen, haddr] at htransfer

end Sys2Proof.Machine
end

section
/-! The statements of 60_exceptions.md: the errors of INIT and WRITE in priority, the completion interrupt and what it
touches, the underrun, the commands of port C in every state, and the events that change TXSTATE. -/

namespace Sys2Proof.Machine

/-! ### The completion interrupt -/

/-- While transmission runs, either silence or one of the buffers drains. -/
theorem drains_buffer_iff {x : TxState} (hx : x ≠ .idle) : (x = .drainA ∨ x = .drainB) ↔ x ≠ .drainSilence := by
  cases x <;> simp_all

/-- Settles O39: the equations of the handler's step, with the cleared flag written out. -/
theorem handlerStepTable : Obligations.HandlerStepTable := by
  intro s ts hts hp he hb keep0 keep1
  have hclear (hx : s.txState ≠ .idle) : clearDrained s = { s with ready0 := keep0, ready1 := keep1 } := by
    simp only [clearDrained_eq_flags, drains_buffer_iff hx, keep0, keep1]
  refine ⟨fun hx => step_handler_idle hts hp he hx, fun hx ha hr => ?_, fun hx ha hr => ?_, fun hx hr => ?_⟩
  · have hother : getReady s (otherSlot s.active) = true := by rw [ha]; exact hr
    have hkeep : keep1 = s.ready1 := if_neg (by simp [ha])
    rw [step_handler_switch hts hp he hx hb hother, hclear hx, hkeep, ha]
    rfl
  · have hother : getReady s (otherSlot s.active) = true := by rw [ha]; exact hr
    have hkeep : keep0 = s.ready0 := if_neg (by simp [ha])
    rw [step_handler_switch hts hp he hx hb hother, hclear hx, hkeep, ha]
    rfl
  · have hother : getReady s (otherSlot s.active) = false := by
      obtain ⟨ha, hr⟩ | ⟨ha, hr⟩ := hr <;> rw [ha] <;> exact hr
    rw [step_handler_underrun hts hp he hx hb hother, hclear hx]
    rfl

/-- The handler's frame (60_exceptions.md R285 (c)): all but its own elements stay, and no flag is set. -/
theorem Move.handler_frame {s t : State} (m : Move s (.agent .handler) t) :
    t = { s with
      ready0 := t.ready0, ready1 := t.ready1, active := t.active, txState := t.txState, irqPend := t.irqPend
      engAddr := t.engAddr, engCnt := t.engCnt, engBusy := t.engBusy } ∧
    (s.ready0 = false → t.ready0 = false) ∧ (s.ready1 = false → t.ready1 = false) := by
  cases m with
  | stay => exact ⟨rfl, id, id⟩
  | completedIdle _ _ _ => exact ⟨rfl, id, id⟩
  | completed _ _ _ _ hr =>
    have hflags := clearDrained_sets_no_flag { s with irqPend := false }
    obtain ⟨-, ⟨-, rfl⟩ | ⟨-, rfl⟩⟩ := rearm_eq_ok.mp hr
    · exact ⟨by simp only [clearDrained_eq_flags], hflags⟩
    · exact ⟨by simp only [clearDrained_eq_flags], hflags⟩

/-- Settles O40: a handler step is one of the handler's moves. -/
theorem handlerTouchesOnlyItsState : Obligations.HandlerTouchesOnlyItsState := by
  intro s t hturn hstep
  exact (hturn ▸ step_move hstep : Move (startTurn s) (.agent .handler) t).handler_frame

/-! ### The underrun -/

/-- While transmission runs with the other buffer not ready, no flag is true once the drained buffer's is cleared. -/
theorem getReady_clearDrained_of_underrun {s : State} (hf : FlagsOk s) (hx : s.txState ≠ .idle)
    (ho : getReady s (otherSlot s.active) = false) (i : Slot) : getReady (clearDrained s) i = false := by
  rw [clearDrained_of_running hf hx, getReady_setReady]
  split
  · rfl
  · rename_i hi
    rw [eq_otherSlot_of_ne hi, ho]

/-- Settles O44: the handler finds no buffer ready and arms the silence buffer, whose transfer is W zero words. -/
theorem underrunTransmitsSilence : Obligations.UnderrunTransmitsSilence := by
  intro s rest h hp he ho hts
  have hx := h.flags.running_of_pending hp
  obtain ⟨-, hsm, -⟩ := h.lifecycle.enabled (h.lifecycle.inited_of_running hx)
  have hready := getReady_clearDrained_of_underrun h.flags hx ho
  have hhandler := step_handler_underrun hts hp he hx (h.engine.pendingNotBusy hp) ho
  have hsilence := stepsTo_silence (rest := rest)
    (s := { clearDrained s with
      turns := List.replicate (bufWords s.cfg) (.agent .engine) ++ rest, tick := s.tick + 1 })
    (by simpa using h.config) (by simpa using hsm) (by simpa using he) (by simp)
  rw [clearDrained_cfg] at hsilence
  exact ⟨_, (stepsTo_add _ (stepsTo_succ 0 hhandler)).trans hsilence, by simp, rfl, clearDrained_active s,
    hready .a, hready .b, rfl⟩

/-! ### The errors of INIT and WRITE -/

/-- An error response on port P, from its 64-bit pattern: nothing else changes (60_exceptions.md R272). -/
theorem respond_error {st : Status} {w : DWord} (hw : responseWord st 0#32 = w) (s : State) :
    respond s .p st 0#32 = { s with respP := s.respP ++ [w] } := by
  rw [respond, hw]

theorem respond_errFailed (s : State) :
    respond s .p .errFailed 0#32 = { s with respP := s.respP ++ [0x0300000000000000#64] } :=
  respond_error (by decide) s

/-- Settles O10: INIT's answers in the order of its rule, a rate being accepted exactly where CLOCKCFG answers. -/
theorem initErrorsInPriority : Obligations.InitErrorsInPriority := by
  intro s r _
  refine ⟨fun hf => ?_, fun hf hrate => ?_, fun hf hrate hc ha => ?_⟩
  · exact execInit_eq_next.mpr (.inl ⟨hf, (respond_errFailed s).symm⟩)
  · have hclk : clockCfg s.cfg r = none := (clockCfg_eq s.cfg r).trans (if_neg hrate)
    exact execInit_eq_next.mpr (.inr (.inl ⟨hf, hclk, (respond_error (by decide) s).symm⟩))
  · have hclk := (clockCfg_eq s.cfg r).trans (if_pos hrate)
    have hanswer := respond_error (st := .errNoEngine) (w := 0x0200000000000000#64) (by decide)
      { s with failed := true }
    exact execInit_eq_next.mpr (.inr (.inr ⟨hf, _, _, hclk, .inr (.inr ⟨hc, ha, hanswer.symm⟩)⟩))

theorem badFormat_eq_true {s : State} {f : Fmt} :
    badFormat s f = true ↔ fmtWide f = true ∧ s.cfg.nativeFmt = .packed16 := by
  simp [badFormat]

theorem badAddr_eq_true {f : Fmt} {ptr cnt : Nat} :
    badAddr f ptr cnt = true ↔ ptr % containerBytes f ≠ 0 ∨ 2 ^ 32 < ptr + cnt * frameBytes f := by
  simp [badAddr]

/-- Settles O13: WRITE's tests in the order of its rule, each reached where those before it fail. -/
theorem writeErrorsInPriority : Obligations.WriteErrorsInPriority := by
  intro s f ptr cnt
  refine ⟨fun hf => ?_, fun hf hi => ?_, fun hf hi hfmt => ?_, fun hf hi hfmt hcnt => ?_,
    fun hf hi hfmt hcnt haddr => ?_⟩
  · simp [exec, execWrite, hf, respond_errFailed]
  · rw [← respond_error (st := .errNotInit) (by decide)]
    simp [exec, execWrite, hf, hi]
  · rw [← respond_error (st := .errFormat) (by decide)]
    simp [exec, execWrite, hf, hi, badFormat_eq_true.mpr hfmt]
  · rw [← respond_error (st := .errCount) (by decide)]
    simp [exec, execWrite, hf, hi, badFormat_eq_false.mpr hfmt, hcnt]
  · rw [← respond_error (st := .errAddr) (by decide)]
    simp [exec, execWrite, hf, hi, badFormat_eq_false.mpr hfmt, hcnt.not_gt, badAddr_eq_true.mpr haddr]

/-! ### The commands of port C -/

/-- STATUS of a response (30_encoding.md R96). -/
theorem responseWord_status (st : Status) (v : Word) : (responseWord st v).extractLsb' 56 8 = statusCode st :=
  (BitVec.extractLsb'_append_eq_of_le (by decide)).trans BitVec.extractLsb'_append_eq_left

/-- Settles O52: a control command answers OK after at most one mute or one volume is set. -/
theorem controlCommandsFrame : Obligations.ControlCommandsFrame := by
  intro i s hi
  obtain ⟨t, ht⟩ := exec_control_next i hi s
  refine ⟨t, ht, ?_⟩
  obtain ⟨v, rfl⟩ | ⟨ch, m, rfl⟩ | ⟨ch, v, rfl⟩ := exec_control_cases hi ht
  · exact ⟨rfl, _, rfl, responseWord_status .ok v⟩
  · exact ⟨by cases ch <;> rfl, _, by simp, responseWord_status .ok 0#32⟩
  · exact ⟨by cases ch <;> rfl, _, by simp, responseWord_status .ok 0#32⟩

/-! ### What changes TXSTATE -/

@[simp] theorem advanceEngine_txState (s : State) : (advanceEngine s).txState = s.txState := by
  rw [advanceEngine_eq]
  split <;> rfl

/-- The handler's rearm never leaves TXSTATE = IDLE. -/
theorem rearm_txState_ne_idle {s t : State} (h : rearm s = .ok t) : t.txState ≠ .idle := by
  obtain ⟨-, ⟨-, rfl⟩ | ⟨-, rfl⟩⟩ := rearm_eq_ok.mp h
  · exact drainOf_ne_idle _
  · simp

/-- The moves that change TXSTATE (60_exceptions.md R286): RESET, INIT answered OK, the publish step that finds IDLE,
and the handler's step that does not. -/
theorem Move.txState_changes {s t : State} {u : Turn} (m : Move s u t) (hne : t.txState ≠ s.txState) :
    (u = .reset ∧ t.txState = .idle) ∨
    (u = .agent .producer ∧ s.wphase = .none ∧ t.txState = .idle ∧ t.respP = s.respP ++ [responseWord .ok 0#32] ∧
      ∃ cw rest r, s.portP = cw :: rest ∧ decode .p cw = .ok (.init r)) ∨
    (u = .agent .producer ∧ s.wphase = .publish ∧ s.txState = .idle ∧ t.txState = drainOf s.wt) ∨
    (u = .agent .handler ∧ s.irqPend = true ∧ s.irqEn = true ∧ s.txState ≠ .idle ∧ t.txState ≠ .idle) := by
  cases m with
  | reset => exact .inl ⟨rfl, rfl⟩
  | initOk rest r cd md hp _ _ cw hq hd => exact .inr (.inl ⟨rfl, hp, rfl, rfl, cw, rest, r, hq, hd⟩)
  | publishedIdle hp hx _ => exact .inr (.inr (.inl ⟨rfl, hp, hx, rfl⟩))
  | completed _ hq he hx hr => exact .inr (.inr (.inr ⟨rfl, hq, he, hx, rearm_txState_ne_idle hr⟩))
  | _ => exact absurd (by simp) hne

/-- Settles O56: a step is a move from the state in which its turn starts, which differs from the state before it in the
schedule alone. -/
theorem txStateChangesOnlyByTable : Obligations.TxStateChangesOnlyByTable := by
  intro s t hstep hne
  have hcases := (step_move hstep).txState_changes hne
  rwa [responseWord_ok_zero] at hcases

end Sys2Proof.Machine
end

section
/-! The statements of 70_reset_and_hazards.md: the two latches that only RESET clears, the configuration that nothing
changes, and SRC, which only its owner writes. -/

namespace Sys2Proof.Machine

/-! ### After a word has moved, and after a handler step -/

@[simp] theorem advanceEngine_cfg (s : State) : (advanceEngine s).cfg = s.cfg := by
  rw [advanceEngine_eq]
  split <;> rfl

@[simp] theorem advanceEngine_src (s : State) : (advanceEngine s).src = s.src := by
  rw [advanceEngine_eq]
  split <;> rfl

@[simp] theorem advanceEngine_failed (s : State) : (advanceEngine s).failed = s.failed := by
  rw [advanceEngine_eq]
  split <;> rfl

@[simp] theorem advanceEngine_engineClaimed (s : State) : (advanceEngine s).engineClaimed = s.engineClaimed := by
  rw [advanceEngine_eq]
  split <;> rfl

/-- Of the handler's frame, what the statements below are about. -/
theorem Move.handler_keeps {s t : State} (m : Move s (.agent .handler) t) :
    t.cfg = s.cfg ∧ t.src = s.src ∧ t.failed = s.failed ∧ t.engineClaimed = s.engineClaimed := by
  obtain ⟨hframe, -⟩ := m.handler_frame
  rw [hframe]
  exact ⟨rfl, rfl, rfl, rfl⟩

/-! ### FAILED and ENGINE_CLAIMED -/

/-- FAILED and ENGINE_CLAIMED, where set in `s`, are set in `t` (70_reset_and_hazards.md R310). -/
def KeepsLatches (s t : State) : Prop :=
  (s.failed = true → t.failed = true) ∧ (s.engineClaimed = true → t.engineClaimed = true)

theorem KeepsLatches.of_eq {s t : State} (hf : t.failed = s.failed) (hc : t.engineClaimed = s.engineClaimed) :
    KeepsLatches s t :=
  ⟨hf.trans, hc.trans⟩

/-- Of all moves but RESET only INIT writes a latch: FAILED where it finds no engine, ENGINE_CLAIMED where it answers
OK, and each time with true. -/
theorem Move.keepsLatches {s t : State} {u : Turn} (m : Move s u t) (hreset : u ≠ .reset) : KeepsLatches s t := by
  cases m with
  | reset => exact absurd rfl hreset
  | initNoEngine => exact ⟨fun _ => by simp, fun hc => by simpa using hc⟩
  | initOk => exact ⟨fun hf => by simpa using hf, fun _ => by simp⟩
  | completed _ hq he hx hr =>
    obtain ⟨-, -, hfailed, hclaimed⟩ := (Move.completed t hq he hx hr).handler_keeps
    exact .of_eq hfailed hclaimed
  | _ => exact .of_eq (by simp) (by simp)

/-- Settles O50: a step that is not a reset is one of the other moves from the state in which its turn starts, whose
latches are those of the state before it. -/
theorem onlyResetClearsFailed : Obligations.OnlyResetClearsFailed :=
  fun _ _ hreset hstep => (step_move hstep).keepsLatches hreset

/-! ### The configuration and SRC -/

/-- No move writes the configuration; RESET starts again from it (70_reset_and_hazards.md R332). -/
theorem Move.cfg_eq {s t : State} {u : Turn} (m : Move s u t) : t.cfg = s.cfg := by
  cases m with
  | reset => rfl
  | completed _ hq he hx hr =>
    obtain ⟨hcfg, -⟩ := (Move.completed t hq he hx hr).handler_keeps
    exact hcfg
  | _ => simp

/-- Of all moves only the collaborator's store writes SRC (20_memory.md R61). -/
theorem Move.src_eq {s t : State} {u : Turn} (m : Move s u t) (hstore : ∀ a v, u ≠ .store a v) : t.src = s.src := by
  cases m with
  | reset => rfl
  | store a v => exact absurd rfl (hstore a v)
  | completed _ hq he hx hr =>
    obtain ⟨-, hsrc, -⟩ := (Move.completed t hq he hx hr).handler_keeps
    exact hsrc
  | _ => simp

/-- Settles O55: a step is a move from the state in which its turn starts, whose configuration and SRC are those of the
state before it. -/
theorem configurationNeverChanges : Obligations.ConfigurationNeverChanges :=
  fun _ _ hstep => ⟨(step_move hstep).cfg_eq, (step_move hstep).src_eq⟩

end Sys2Proof.Machine
end
